-- ==== Sys2Proof/Word.lean ====
section
/-! DEFINITION. The plain types of DSD2: words, bytes and the numbers that name registers (R5, R20, R29, R32, R60). -/

namespace Sys2Proof

/-- A general register, the pc, an address, a special register: `XLEN` = 64 bits (R5, R20, R26, R60). -/
abbrev Word := BitVec 64

/-- The smallest addressable unit (R61). -/
abbrev Byte := BitVec 8

/-- The number of a general register, r0 to r31 (R20). -/
abbrev Reg := Fin 32

/-- The code of a three-bit register field: code `c` names general register `r(8 + c)` (R23). -/
abbrev Reg3 := Fin 8

/-- The number of a compare result register, P0 to P7 (R29, R31). -/
abbrev PReg := Fin 8

/-- A bit number in a register, 0 the least significant (R6, R230). -/
abbrev BitNo := Fin 64

/-- The number of a special purpose register, 0 to 2047 (R32). -/
abbrev SprNo := Fin 2048

end Sys2Proof
end

