-- ==== Sys2Proof/Config.lean ====
section
/-! DEFINITION. What an implementation fixes, and the free values: the constants without a body are values that the spec
leaves open, so no proof can see what they are. -/

namespace Sys2Proof

/-- The seven bit-field instructions, as a tag of the value one of them draws (R230 to R237). -/
inductive BitfieldOp where
  | bfchg | bfclr | bfext | bfextu | bfins | bfinsi | bfset
deriving DecidableEq, Repr

/-- The parameters of the decoder and the encoder (R5, D4, D5; log 23). -/
structure Encodings where
  /-- `PROVISIONAL_ENCODINGS`: the spec-assigned opcode bytes, the container's and 9Bh and 9Dh, decode (R110, R116, R121). -/
  provisional : Bool
  /-- `OPC_L24`, the opcode byte of the container for the instructions that have only a 24-bit figure (R110). -/
  opcL24 : Byte
deriving DecidableEq, Repr

namespace Config

/-- The decided values of `PROVISIONAL_ENCODINGS` and `OPC_L24` (R5, D4). -/
def encodings : Encodings := { provisional := true, opcL24 := 0x5C }

/-- `RESET_PC`, the pc after reset, an open parameter that must be even (R5, R47). DESIGN CHOICE, unsafe: 0 (log 1). -/
def resetPc : Word := 0

/-- `BP_REG`, the register that "BP" means in the compressed forms (R24, D13). -/
def bpReg : Reg := 2

/-- `SP_REG`, the stack pointer of the compressed forms (R24), the register CAS may not target (R300). -/
def spReg : Reg := 14

/-- The return address register that RTS reads and the 16-bit JAL writes (R24). -/
def raReg : Reg := 1

/-- `MID_VALUE`, the constant that MF from special register 48 returns (R38). Open: a free value, safe (log 12). -/
opaque midValue : Word

/-- `FEAT_VALUE`, the constant that MF from special register 49 returns (R38). Open: a free value, safe (log 12). -/
opaque featValue : Word

/-- The quotient that DIVU writes when the divisor is zero (R159, U1): a draw, one for each execution. Free, safe (log 16). -/
opaque divuByZero (draw : Nat) (dividend : Word) : Word

/-- What a bit-field instruction writes when `mb > me` (R230, U2): a draw, one for each execution. Free, safe (log 17). -/
opaque bitfieldDraw (draw : Nat) (op : BitfieldOp) (source target : Word) (mb me : BitNo) : Word

/-- `CLI_DELAY`, the number of later instructions that still run masked after a CLI (R312, U4): a draw, finite, one for
each execution. Free, safe (log 15). -/
opaque cliDelay (draw : Nat) : Nat

/-- How far TICK has moved since it was last read (R39, U3): a draw, one for each read. Free, safe (log 6). -/
opaque tickAdvance (draw : Nat) : Nat

end Config

end Sys2Proof
end

