-- ==== Sys2Proof/Syntax.lean ====
section
/-! DEFINITION. The instructions: one constructor for each row of the opcode table, in the table's order. An operand is a
field of the encoding as its format rule names it; bits that a format does not use are no operand (R96). -/

namespace Sys2Proof

/-- The 149 instruction forms (R118 to R120). A suffix 16 or 48 marks the short or long form of a mnemonic; a short
immediate or displacement keeps its encoded width and is extended by the meaning (R97). -/
inductive Instr where
  /-- ADDI.16: 16-bit, register and 5-bit immediate (R99); R153. -/
  | addi16 (rt : Reg) (imm : BitVec 5)
  /-- ADDI SP: 16-bit, 10-bit immediate (R100); R154. -/
  | addiSp (imm : BitVec 10)
  /-- LDI: 16-bit, register and 5-bit immediate (R99); R160. -/
  | ldi (rt : Reg) (imm : BitVec 5)
  /-- ADD.16: 16-bit, two registers (R101); R151. -/
  | add16 (rt : Reg) (ra3 : Reg3)
  /-- AND.16: 16-bit, two registers (R101); R182. -/
  | and16 (rt : Reg) (ra3 : Reg3)
  /-- OR.16: 16-bit, two registers (R101); R191. -/
  | or16 (rt : Reg) (ra3 : Reg3)
  /-- LW.16: 16-bit load or store with base register (R103); R281. -/
  | lw16 (rt3 : Reg3) (ra3 : Reg3) (disp : BitVec 4)
  /-- SW.16: 16-bit load or store with base register (R103); R285. -/
  | sw16 (rs3 : Reg3) (ra3 : Reg3) (disp : BitVec 4)
  /-- LW BP: 16-bit load or store with implied base (R104); R282. -/
  | lwBp (rt : Reg) (disp : BitVec 5)
  /-- SW BP: 16-bit load or store with implied base (R104); R286. -/
  | swBp (rs : Reg) (disp : BitVec 5)
  /-- BEQS: 16-bit branch (R102); R214. -/
  | beqs (pn : PReg) (disp : BitVec 7)
  /-- BNES: 16-bit branch (R102); R215. -/
  | bnes (pn : PReg) (disp : BitVec 7)
  /-- LW SP: 16-bit load or store with implied base (R104); R283. -/
  | lwSp (rt : Reg) (disp : BitVec 5)
  /-- SW SP: 16-bit load or store with implied base (R104); R287. -/
  | swSp (rs : Reg) (disp : BitVec 5)
  /-- INT: software interrupt (R105); R314. -/
  | int (offset : BitVec 9)
  /-- RTS: two-byte system group (R106); R219. -/
  | rts
  /-- RTI: two-byte system group (R106); R319. -/
  | rti
  /-- RTD: two-byte system group (R106); R321. -/
  | rtd
  /-- RTE: two-byte system group (R106); R320. -/
  | rte
  /-- SYNC: two-byte system group (R106); R317. -/
  | sync
  /-- MEMDB: two-byte system group (R106); R315. -/
  | memdb
  /-- MEMSB: two-byte system group (R106); R316. -/
  | memsb
  /-- CLI: two-byte system group (R106); R312. -/
  | cli
  /-- SEI: two-byte system group (R106); R313. -/
  | sei
  /-- NOP: two-byte system group (R106); R318. Second byte E1h. -/
  | nopE1
  /-- NOP: two-byte system group (R106); R318. Second byte EAh. -/
  | nopEA
  /-- MRK1: two-byte system group (R106); R324. -/
  | mrk1
  /-- MRK2: two-byte system group (R106); R324. -/
  | mrk2
  /-- MRK3: two-byte system group (R106); R324. -/
  | mrk3
  /-- MRK4: two-byte system group (R106); R324. -/
  | mrk4
  /-- ADDI BP: 16-bit, 10-bit immediate (R100); R155. -/
  | addiBp (imm : BitVec 10)
  /-- JAL.16: 16-bit, 10-bit immediate (R100); R217. -/
  | jal16 (disp : BitVec 10)
  /-- ADDI: 32-bit, 14-bit immediate (R107); R152. -/
  | addi (rt : Reg) (ra : Reg) (imm : BitVec 14)
  /-- CMPI: 32-bit, 14-bit immediate (R107); R255. -/
  | cmpi (pt : PReg) (ra : Reg) (imm : BitVec 14)
  /-- ANDI: 32-bit, 14-bit immediate (R107); R184. -/
  | andi (rt : Reg) (ra : Reg) (imm : BitVec 14)
  /-- ORI: 32-bit, 14-bit immediate (R107); R192. -/
  | ori (rt : Reg) (ra : Reg) (imm : BitVec 14)
  /-- XORI: 32-bit, 14-bit immediate (R107); R196. -/
  | xori (rt : Reg) (ra : Reg) (imm : BitVec 14)
  /-- BITI: bit test (R109 (a)); R251. -/
  | biti (pt : PReg) (ra : Reg) (imm : BitVec 14)
  /-- 2ADDI: 32-bit, 14-bit immediate (R107); R142. -/
  | twoAddi (rt : Reg) (ra : Reg) (imm : BitVec 14)
  /-- 4ADDI: 32-bit, 14-bit immediate (R107); R144. -/
  | fourAddi (rt : Reg) (ra : Reg) (imm : BitVec 14)
  /-- 8ADDI: 32-bit, 14-bit immediate (R107); R146. -/
  | eightAddi (rt : Reg) (ra : Reg) (imm : BitVec 14)
  /-- 16ADDI: 32-bit, 14-bit immediate (R107); R148. -/
  | sixteenAddi (rt : Reg) (ra : Reg) (imm : BitVec 14)
  /-- LB: 32-bit load or store (R107); R271. -/
  | lb (rt : Reg) (ra : Reg) (disp : BitVec 14)
  /-- LBU: 32-bit load or store (R107); R272. -/
  | lbu (rt : Reg) (ra : Reg) (disp : BitVec 14)
  /-- LH: 32-bit load or store (R107); R275. -/
  | lh (rt : Reg) (ra : Reg) (disp : BitVec 14)
  /-- LHU: 32-bit load or store (R107); R276. -/
  | lhu (rt : Reg) (ra : Reg) (disp : BitVec 14)
  /-- LW: 32-bit load or store (R107); R277. -/
  | lw (rt : Reg) (ra : Reg) (disp : BitVec 14)
  /-- SW: 32-bit load or store (R107); R284. -/
  | sw (rs : Reg) (ra : Reg) (disp : BitVec 14)
  /-- ADD: three registers (R108); R150. -/
  | add (rt : Reg) (ra : Reg) (rb : Reg)
  /-- ADDO: three registers (R108); R157. -/
  | addo (rt : Reg) (ra : Reg) (rb : Reg)
  /-- SUB: three registers (R108); R164. -/
  | sub (rt : Reg) (ra : Reg) (rb : Reg)
  /-- SUBO: three registers (R108); R165. -/
  | subo (rt : Reg) (ra : Reg) (rb : Reg)
  /-- XOR: three registers (R108); R195. -/
  | xor (rt : Reg) (ra : Reg) (rb : Reg)
  /-- CMP: three registers (R108); R254. -/
  | cmp (pt : PReg) (ra : Reg) (rb : Reg)
  /-- AND: three registers (R108); R181. -/
  | and (rt : Reg) (ra : Reg) (rb : Reg)
  /-- OR: three registers (R108); R190. -/
  | or (rt : Reg) (ra : Reg) (rb : Reg)
  /-- NAND: three registers (R108); R187. -/
  | nand (rt : Reg) (ra : Reg) (rb : Reg)
  /-- NOR: three registers (R108); R188. -/
  | nor (rt : Reg) (ra : Reg) (rb : Reg)
  /-- CHK: bounds check (R109 (b)); R252. -/
  | chk (pt : PReg) (ra : Reg) (rb : Reg) (rc : Reg)
  /-- CHKU: bounds check (R109 (b)); R253. -/
  | chku (pt : PReg) (ra : Reg) (rb : Reg) (rc : Reg)
  /-- BF: conditional branch (R109 (c)); R211. -/
  | bf (pn : PReg) (disp : BitVec 14)
  /-- BT: conditional branch (R109 (c)); R211. -/
  | bt (pn : PReg) (disp : BitVec 14)
  /-- BEQ: conditional branch (R109 (c)); R211. -/
  | beq (pn : PReg) (disp : BitVec 14)
  /-- BNE: conditional branch (R109 (c)); R211. -/
  | bne (pn : PReg) (disp : BitVec 14)
  /-- BLE: conditional branch (R109 (c)); R211. -/
  | ble (pn : PReg) (disp : BitVec 14)
  /-- BGT: conditional branch (R109 (c)); R211. -/
  | bgt (pn : PReg) (disp : BitVec 14)
  /-- BGE: conditional branch (R109 (c)); R211. -/
  | bge (pn : PReg) (disp : BitVec 14)
  /-- BLT: conditional branch (R109 (c)); R211. -/
  | blt (pn : PReg) (disp : BitVec 14)
  /-- BLEU: conditional branch (R109 (c)); R211. -/
  | bleu (pn : PReg) (disp : BitVec 14)
  /-- BGTU: conditional branch (R109 (c)); R211. -/
  | bgtu (pn : PReg) (disp : BitVec 14)
  /-- BGEU: conditional branch (R109 (c)); R211. -/
  | bgeu (pn : PReg) (disp : BitVec 14)
  /-- BLTU: conditional branch (R109 (c)); R211. -/
  | bltu (pn : PReg) (disp : BitVec 14)
  /-- BSIG: conditional branch (R109 (c)); R213. -/
  | bsig (pn : PReg) (disp : BitVec 14)
  /-- JAL: 32-bit jump (R109 (d)); R216. -/
  | jal (rt : Reg) (offset : BitVec 19)
  /-- XNOR: container, three registers (R110, R111); R194. -/
  | xnor (rt : Reg) (ra : Reg) (rb : Reg)
  /-- ANDC: container, three registers (R110, R111); R183. -/
  | andc (rt : Reg) (ra : Reg) (rb : Reg)
  /-- LBUX: container, three registers (R110, R111); R273. -/
  | lbux (rt : Reg) (ra : Reg) (rb : Reg)
  /-- LBX: container, three registers (R110, R111); R274. -/
  | lbx (rt : Reg) (ra : Reg) (rb : Reg)
  /-- LHUX: container, three registers (R110, R111); R279. -/
  | lhux (rt : Reg) (ra : Reg) (rb : Reg)
  /-- LHX: container, three registers (R110, R111); R280. -/
  | lhx (rt : Reg) (ra : Reg) (rb : Reg)
  /-- DIV: container, three registers (R110, R111); R158. -/
  | div (rt : Reg) (ra : Reg) (rb : Reg)
  /-- DIVU: container, three registers (R110, R111); R159. -/
  | divu (rt : Reg) (ra : Reg) (rb : Reg)
  /-- SHL: container, three registers (R110, R111); R239. -/
  | shl (rt : Reg) (ra : Reg) (rb : Reg)
  /-- SHRU: container, three registers (R110, R111); R241. -/
  | shru (rt : Reg) (ra : Reg) (rb : Reg)
  /-- SHR: container, three registers (R110, R111); R240. -/
  | shr (rt : Reg) (ra : Reg) (rb : Reg)
  /-- 2ADD: container, three registers (R110, R111); R141. -/
  | twoAdd (rt : Reg) (ra : Reg) (rb : Reg)
  /-- 4ADD: container, three registers (R110, R111); R143. -/
  | fourAdd (rt : Reg) (ra : Reg) (rb : Reg)
  /-- 8ADD: container, three registers (R110, R111); R145. -/
  | eightAdd (rt : Reg) (ra : Reg) (rb : Reg)
  /-- 16ADD: container, three registers (R110, R111); R147. -/
  | sixteenAdd (rt : Reg) (ra : Reg) (rb : Reg)
  /-- NEG: container, two registers (R110, R111); R163. -/
  | neg (rt : Reg) (ra : Reg)
  /-- NOT: container, two registers (R110, R111); R189. -/
  | not (rt : Reg) (ra : Reg)
  /-- ABS: container, two registers (R110, R111); R149. -/
  | abs (rt : Reg) (ra : Reg)
  /-- COM: container, two registers (R110, R111); R186. -/
  | com (rt : Reg) (ra : Reg)
  /-- JALR: container, two registers (R110, R111); R218. -/
  | jalr (rt : Reg) (ra : Reg)
  /-- CACHE: container, cache command (R110, R111); R310. Func6=0: invalidate entire instruction cache. -/
  | cacheInvICache (ra : Reg)
  /-- CACHE: container, cache command (R110, R111); R310. Func6=1: invalidate instruction cache line (address in Ra). -/
  | cacheInvILine (ra : Reg)
  /-- CACHE: container, cache command (R110, R111); R310. Func6=32: invalidate entire data cache. -/
  | cacheInvDCache (ra : Reg)
  /-- CACHE: container, cache command (R110, R111); R310. Func6=33: invalidate data cache line (address in Ra). -/
  | cacheInvDLine (ra : Reg)
  /-- ADDI.48: 48-bit, 30-bit immediate (R112); R152. -/
  | addi48 (rt : Reg) (ra : Reg) (imm : BitVec 30)
  /-- CMPI.48: 48-bit, 30-bit immediate (R112); R255. -/
  | cmpi48 (pt : PReg) (ra : Reg) (imm : BitVec 30)
  /-- CMPIL: 48-bit, 24-bit immediate (R112); R256. -/
  | cmpil (pt : PReg) (ra : Reg) (imm : BitVec 24)
  /-- ANDI.48: 48-bit, 30-bit immediate (R112); R184. -/
  | andi48 (rt : Reg) (ra : Reg) (imm : BitVec 30)
  /-- ORI.48: 48-bit, 30-bit immediate (R112); R192. -/
  | ori48 (rt : Reg) (ra : Reg) (imm : BitVec 30)
  /-- XORI.48: 48-bit, 30-bit immediate (R112); R196. -/
  | xori48 (rt : Reg) (ra : Reg) (imm : BitVec 30)
  /-- JAL.48: 48-bit jump (R116 (a)); R216. -/
  | jal48 (rt : Reg) (offset : BitVec 35)
  /-- CAS: compare and swap (R116 (b)); R300. -/
  | cas (rt : Reg) (ra : Reg) (rb : Reg) (rc : Reg) (disp : BitVec 12)
  /-- LB.48: 48-bit load or store (R113); R271. -/
  | lb48 (rt : Reg) (ra : Reg) (disp : BitVec 27)
  /-- LBU.48: 48-bit load or store (R113); R272. -/
  | lbu48 (rt : Reg) (ra : Reg) (disp : BitVec 27)
  /-- LH.48: 48-bit load or store (R113); R275. -/
  | lh48 (rt : Reg) (ra : Reg) (disp : BitVec 27)
  /-- LHU.48: 48-bit load or store (R113); R276. -/
  | lhu48 (rt : Reg) (ra : Reg) (disp : BitVec 27)
  /-- LW.48: 48-bit load or store (R113); R277. -/
  | lw48 (rt : Reg) (ra : Reg) (disp : BitVec 27)
  /-- SW.48: 48-bit load or store (R113); R284. -/
  | sw48 (rs : Reg) (ra : Reg) (disp : BitVec 27)
  /-- MF: special register move (R114); R322. -/
  | mf (rt : Reg) (spr : SprNo)
  /-- MT: special register move (R114); R323. -/
  | mt (spr : SprNo) (ra : Reg)
  /-- BFINS: bit-field (R115); R235. -/
  | bfins (rt : Reg) (ra : Reg) (mb : BitNo) (me : BitNo)
  /-- BFSET: bit-field (R115); R237. -/
  | bfset (rt : Reg) (ra : Reg) (mb : BitNo) (me : BitNo)
  /-- BFCLR: bit-field (R115); R232. -/
  | bfclr (rt : Reg) (ra : Reg) (mb : BitNo) (me : BitNo)
  /-- BFCHG: bit-field (R115); R231. -/
  | bfchg (rt : Reg) (ra : Reg) (mb : BitNo) (me : BitNo)
  /-- BFEXTU: bit-field (R115); R234. -/
  | bfextu (rt : Reg) (ra : Reg) (mb : BitNo) (me : BitNo)
  /-- BFEXT: bit-field (R115); R233. -/
  | bfext (rt : Reg) (ra : Reg) (mb : BitNo) (me : BitNo)
  /-- BFINSI: bit-field (R115); R236. -/
  | bfinsi (rt : Reg) (imm : BitVec 5) (mb : BitNo) (me : BitNo)
  /-- ADDIS: 64-bit, shifted 40-bit immediate (R117); R156. -/
  | addis (rt : Reg) (ra : Reg) (imm : BitVec 40)
  /-- CMPIU: 64-bit, shifted 40-bit immediate (R117); R257. -/
  | cmpiu (pt : PReg) (ra : Reg) (imm : BitVec 40)
  /-- ANDIS: 64-bit, shifted 40-bit immediate (R117); R185. -/
  | andis (rt : Reg) (ra : Reg) (imm : BitVec 40)
  /-- ORIS: 64-bit, shifted 40-bit immediate (R117); R193. -/
  | oris (rt : Reg) (ra : Reg) (imm : BitVec 40)
  /-- XORIS: 64-bit, shifted 40-bit immediate (R117); R197. -/
  | xoris (rt : Reg) (ra : Reg) (imm : BitVec 40)
  /-- LC: map-only name, no operand is defined (R128); R325. -/
  | lc
  /-- LCU: map-only name, no operand is defined (R128); R325. -/
  | lcu
  /-- LVWAR: map-only name, no operand is defined (R128); R325. -/
  | lvwar
  /-- SB: map-only name, no operand is defined (R128); R325. -/
  | sb
  /-- SC: map-only name, no operand is defined (R128); R325. -/
  | sc
  /-- SH: map-only name, no operand is defined (R128); R325. -/
  | sh
  /-- SWCR: map-only name, no operand is defined (R128); R325. -/
  | swcr
  /-- BITI.48: map-only name, no operand is defined (R128); R325. -/
  | biti48
  /-- JSRI: map-only name, no operand is defined (R128); R325. -/
  | jsri
  /-- LWS: map-only name, no operand is defined (R128); R325. -/
  | lws
  /-- LCL: map-only name, no operand is defined (R128); R325. -/
  | lcl
  /-- LC.48: map-only name, no operand is defined (R128); R325. -/
  | lc48
  /-- LCU.48: map-only name, no operand is defined (R128); R325. -/
  | lcu48
  /-- LWAR: map-only name, no operand is defined (R128); R325. -/
  | lwar
  /-- LVB: map-only name, no operand is defined (R128); R325. -/
  | lvb
  /-- LVC: map-only name, no operand is defined (R128); R325. -/
  | lvc
  /-- LVH: map-only name, no operand is defined (R128); R325. -/
  | lvh
  /-- LVW: map-only name, no operand is defined (R128); R325. -/
  | lvw
  /-- SB.48: map-only name, no operand is defined (R128); R325. -/
  | sb48
  /-- SC.48: map-only name, no operand is defined (R128); R325. -/
  | sc48
  /-- SH.48: map-only name, no operand is defined (R128); R325. -/
  | sh48
  /-- SWCR.48: map-only name, no operand is defined (R128); R325. -/
  | swcr48
  /-- LLAX: map-only name, no operand is defined (R128); R325. -/
  | llax
deriving DecidableEq, Repr

end Sys2Proof
end

