-- ==== Sys2Proof/Decode.lean ====
section
/-! DEFINITION. The decoder, total on any bytes (R90 to R122), and the encoder written from the same formats. An instruction
of `L` bytes is the number whose bits `8k+7 : 8k` are its byte `k` (R63). -/

namespace Sys2Proof

/-- Why bytes are no instruction. -/
inductive Reject where
  /-- Fewer bytes than the instruction's length (R91). -/
  | tooShort
  /-- A reserved opcode byte (R118, R122). -/
  | reservedOpcode (op : Nat)
  /-- A reserved value of the function fields under this opcode byte (R106, R108, R109, R111, R115, R122). -/
  | reservedFunction (op fn : Nat)
  /-- A spec-assigned opcode byte while `PROVISIONAL_ENCODINGS` is off (R110, R116, R121). -/
  | provisionalOff (op : Nat)
deriving DecidableEq, Repr

/-- The `n` bits of `w` from bit `lo` up, as a number (R6). -/
def field (w lo n : Nat) : Nat := w / 2 ^ lo % 2 ^ n

/-- The `n`-bit field of `w` from bit `lo` up (R6). -/
def bitsAt (n w lo : Nat) : BitVec n := BitVec.ofNat n (w / 2 ^ lo)

/-- The general register named by the five bits from bit `lo` up (R94). -/
def regAt (w lo : Nat) : Reg := Fin.ofNat 32 (w / 2 ^ lo)

/-- The three-bit code from bit `lo` up: a compare register (R31) or a register r8 to r15 (R23). -/
def codeAt (w lo : Nat) : Fin 8 := Fin.ofNat 8 (w / 2 ^ lo)

/-- The bit number held by the six bits from bit `lo` up (R115). -/
def bitNoAt (w lo : Nat) : BitNo := Fin.ofNat 64 (w / 2 ^ lo)

/-- The special register number held by the eleven bits from bit `lo` up (R114). -/
def sprAt (w lo : Nat) : SprNo := Fin.ofNat 2048 (w / 2 ^ lo)

/-- The split value of a 16-bit format: its low two bits are bits 1:0, the rest begins at bit `hi` and ends at bit 15
(R98 to R104). -/
def splitAt (n w hi : Nat) : BitVec n := BitVec.ofNat n (w / 2 ^ hi * 4 + w % 4)

/-- INT's offset: bit 0 is bit 0, the other eight begin at bit 8 (R105). -/
def offsetAt (w : Nat) : BitVec 9 := BitVec.ofNat 9 (w / 2 ^ 8 * 2 + w % 2)

/-- The opcode bytes of 32-bit instructions that R118 gives no meaning but the container's. -/
def blank32 (op : Nat) : Bool :=
  (0x43 ≤ op && op ≤ 0x47) || (0x4C ≤ op && op ≤ 0x51) || (0x53 ≤ op && op ≤ 0x58) || (0x5A ≤ op && op ≤ 0x5F) ||
    (0x68 ≤ op && op ≤ 0x6A) || (0x74 ≤ op && op ≤ 0x76) || (0x78 ≤ op && op ≤ 0x7F)

/-- `OPC_L24` can be the container's byte: it is a 32-bit byte with no other meaning (R110, R118). -/
def Encodings.containerFree (p : Encodings) : Bool := blank32 p.opcL24.toNat

/-- The length in bytes, from the top two bits of the opcode byte (R91). -/
def lengthOf (op : Nat) : Nat := 2 * (op / 64 % 4 + 1)

/-- The `33h` group, by its second byte (R106, R119). -/
def decode33 (w : Nat) : Except Reject Instr :=
  match field w 8 8 with
  | 0x00 => .ok .rts
  | 0x01 => .ok .rti
  | 0x02 => .ok .rtd
  | 0x03 => .ok .rte
  | 0x80 => .ok .sync
  | 0x82 => .ok .memdb
  | 0x83 => .ok .memsb
  | 0x90 => .ok .cli
  | 0x91 => .ok .sei
  | 0xE1 => .ok .nopE1
  | 0xE4 => .ok .mrk1
  | 0xE5 => .ok .mrk2
  | 0xE6 => .ok .mrk3
  | 0xE7 => .ok .mrk4
  | 0xEA => .ok .nopEA
  | fn => .error (.reservedFunction 0x33 fn)

/-- The 16-bit instructions, by the six-bit opcode in bits 7:2 (R98 to R106, R118). -/
def decode16 (w : Nat) : Except Reject Instr :=
  match field w 2 6 with
  | 0x00 => .ok (.addi16 (regAt w 8) (splitAt 5 w 13))
  | 0x01 => .ok (.addiSp (splitAt 10 w 8))
  | 0x02 => .ok (.ldi (regAt w 8) (splitAt 5 w 13))
  | 0x03 =>
    match field w 0 2 with
    | 0 => .ok (.add16 (regAt w 8) (codeAt w 13))
    | 2 => .ok (.and16 (regAt w 8) (codeAt w 13))
    | 3 => .ok (.or16 (regAt w 8) (codeAt w 13))
    | _ => .error (.reservedOpcode (w % 256))
  | 0x04 => .ok (.lw16 (codeAt w 8) (codeAt w 11) (splitAt 4 w 14))
  | 0x05 => .ok (.sw16 (codeAt w 8) (codeAt w 11) (splitAt 4 w 14))
  | 0x06 => .ok (.lwBp (regAt w 8) (splitAt 5 w 13))
  | 0x07 => .ok (.swBp (regAt w 8) (splitAt 5 w 13))
  | 0x08 => .ok (.beqs (codeAt w 8) (splitAt 7 w 11))
  | 0x09 => .ok (.bnes (codeAt w 8) (splitAt 7 w 11))
  | 0x0A => .ok (.lwSp (regAt w 8) (splitAt 5 w 13))
  | 0x0B => .ok (.swSp (regAt w 8) (splitAt 5 w 13))
  | 0x0C =>
    match field w 0 2 with
    | 0 => .ok (.int (offsetAt w))
    | 1 => .ok (.int (offsetAt w))
    | 3 => decode33 w
    | _ => .error (.reservedOpcode (w % 256))
  | 0x0D => .ok (.addiBp (splitAt 10 w 8))
  | 0x0E => .ok (.jal16 (splitAt 10 w 8))
  | _ => .error (.reservedOpcode (w % 256))

/-- The `{RR}` group, opcode byte 42h, by `func6` and `sel3` (R108, R120). -/
def decodeRR (w : Nat) : Except Reject Instr :=
  match field w 26 6, field w 23 3 with
  | 0x00, 0 => .ok (.add (regAt w 18) (regAt w 8) (regAt w 13))
  | 0x00, 1 => .ok (.addo (regAt w 18) (regAt w 8) (regAt w 13))
  | 0x01, 0 => .ok (.sub (regAt w 18) (regAt w 8) (regAt w 13))
  | 0x01, 1 => .ok (.subo (regAt w 18) (regAt w 8) (regAt w 13))
  | 0x02, _ => .ok (.cmp (codeAt w 18) (regAt w 8) (regAt w 13))
  | 0x08, _ => .ok (.and (regAt w 18) (regAt w 8) (regAt w 13))
  | 0x09, _ => .ok (.or (regAt w 18) (regAt w 8) (regAt w 13))
  | 0x0A, 0 => .ok (.xor (regAt w 18) (regAt w 8) (regAt w 13))
  | 0x0C, _ => .ok (.nand (regAt w 18) (regAt w 8) (regAt w 13))
  | 0x0D, _ => .ok (.nor (regAt w 18) (regAt w 8) (regAt w 13))
  | fn, _ => .error (.reservedFunction 0x42 fn)

/-- Bounds checks, opcode byte 59h, by `func6` (R109 (b)). -/
def decodeCK (w : Nat) : Except Reject Instr :=
  match field w 26 6 with
  | 0x00 => .ok (.chk (codeAt w 23) (regAt w 8) (regAt w 13) (regAt w 18))
  | 0x01 => .ok (.chku (codeAt w 23) (regAt w 8) (regAt w 13) (regAt w 18))
  | fn => .error (.reservedFunction 0x59 fn)

/-- Bcc, opcode byte 52h, by the condition in bits 16:13; conditions 12, 14 and 15 are reserved (R109 (c), R212). -/
def decodeBcc (w : Nat) : Except Reject Instr :=
  match field w 13 4 with
  | 0 => .ok (.bf (codeAt w 8) (bitsAt 14 w 18))
  | 1 => .ok (.bt (codeAt w 8) (bitsAt 14 w 18))
  | 2 => .ok (.beq (codeAt w 8) (bitsAt 14 w 18))
  | 3 => .ok (.bne (codeAt w 8) (bitsAt 14 w 18))
  | 4 => .ok (.ble (codeAt w 8) (bitsAt 14 w 18))
  | 5 => .ok (.bgt (codeAt w 8) (bitsAt 14 w 18))
  | 6 => .ok (.bge (codeAt w 8) (bitsAt 14 w 18))
  | 7 => .ok (.blt (codeAt w 8) (bitsAt 14 w 18))
  | 8 => .ok (.bleu (codeAt w 8) (bitsAt 14 w 18))
  | 9 => .ok (.bgtu (codeAt w 8) (bitsAt 14 w 18))
  | 10 => .ok (.bgeu (codeAt w 8) (bitsAt 14 w 18))
  | 11 => .ok (.bltu (codeAt w 8) (bitsAt 14 w 18))
  | 13 => .ok (.bsig (codeAt w 8) (bitsAt 14 w 18))
  | cond => .error (.reservedFunction 0x52 cond)

/-- The `{R}` group of the container, `K = 01h`, by `func6` (R111, R120). -/
def decodeR (w : Nat) : Except Reject Instr :=
  match field w 18 6 with
  | 0x01 => .ok (.neg (regAt w 13) (regAt w 8))
  | 0x02 => .ok (.not (regAt w 13) (regAt w 8))
  | 0x03 => .ok (.abs (regAt w 13) (regAt w 8))
  | 0x0B => .ok (.com (regAt w 13) (regAt w 8))
  | 0x3F => .ok (.jalr (regAt w 13) (regAt w 8))
  | fn => .error (.reservedFunction (field w 0 8) fn)

/-- CACHE in the container, `K = 1Bh`, by the command `Func6` (R111, R310). -/
def decodeCache (w : Nat) : Except Reject Instr :=
  match field w 18 6 with
  | 0 => .ok (.cacheInvICache (regAt w 8))
  | 1 => .ok (.cacheInvILine (regAt w 8))
  | 32 => .ok (.cacheInvDCache (regAt w 8))
  | 33 => .ok (.cacheInvDLine (regAt w 8))
  | fn => .error (.reservedFunction (field w 0 8) fn)

/-- The container of the 24-bit figures, by `K` in bits 31:26 and `s` in bit 23 (R110, R111). -/
def decodeL24 (w : Nat) : Except Reject Instr :=
  match field w 26 6, field w 23 1 with
  | 0x01, _ => decodeR w
  | 0x1B, _ => decodeCache w
  | 0x06, 1 => .ok (.xnor (regAt w 18) (regAt w 8) (regAt w 13))
  | 0x07, 0 => .ok (.andc (regAt w 18) (regAt w 8) (regAt w 13))
  | 0x10, 0 => .ok (.lbux (regAt w 18) (regAt w 8) (regAt w 13))
  | 0x10, 1 => .ok (.lbx (regAt w 18) (regAt w 8) (regAt w 13))
  | 0x11, 0 => .ok (.lhux (regAt w 18) (regAt w 8) (regAt w 13))
  | 0x11, 1 => .ok (.lhx (regAt w 18) (regAt w 8) (regAt w 13))
  | 0x1E, 0 => .ok (.div (regAt w 18) (regAt w 8) (regAt w 13))
  | 0x1E, 1 => .ok (.divu (regAt w 18) (regAt w 8) (regAt w 13))
  | 0x2A, 0 => .ok (.shl (regAt w 18) (regAt w 8) (regAt w 13))
  | 0x2B, 0 => .ok (.shru (regAt w 18) (regAt w 8) (regAt w 13))
  | 0x2B, 1 => .ok (.shr (regAt w 18) (regAt w 8) (regAt w 13))
  | 0x2C, 0 => .ok (.twoAdd (regAt w 18) (regAt w 8) (regAt w 13))
  | 0x2D, 0 => .ok (.fourAdd (regAt w 18) (regAt w 8) (regAt w 13))
  | 0x2E, 0 => .ok (.eightAdd (regAt w 18) (regAt w 8) (regAt w 13))
  | 0x2F, 0 => .ok (.sixteenAdd (regAt w 18) (regAt w 8) (regAt w 13))
  | k, _ => .error (.reservedFunction (field w 0 8) k)

/-- The 32-bit instructions, by the opcode byte (R107 to R111, R118). The container's byte is looked at last, so that a byte
to which R118 gives another meaning keeps it (log 23). -/
def decode32 (p : Encodings) (w : Nat) : Except Reject Instr :=
  match field w 0 8 with
  | 0x42 => decodeRR w
  | 0x52 => decodeBcc w
  | 0x59 => decodeCK w
  | 0x40 => .ok (.addi (regAt w 13) (regAt w 8) (bitsAt 14 w 18))
  | 0x41 => .ok (.cmpi (codeAt w 13) (regAt w 8) (bitsAt 14 w 18))
  | 0x48 => .ok (.andi (regAt w 13) (regAt w 8) (bitsAt 14 w 18))
  | 0x49 => .ok (.ori (regAt w 13) (regAt w 8) (bitsAt 14 w 18))
  | 0x4A => .ok (.xori (regAt w 13) (regAt w 8) (bitsAt 14 w 18))
  | 0x4B => .ok (.biti (codeAt w 13) (regAt w 8) (bitsAt 14 w 18))
  | 0x60 => .ok (.lb (regAt w 13) (regAt w 8) (bitsAt 14 w 18))
  | 0x61 => .ok (.lbu (regAt w 13) (regAt w 8) (bitsAt 14 w 18))
  | 0x62 => .ok .lc
  | 0x63 => .ok .lcu
  | 0x64 => .ok (.lh (regAt w 13) (regAt w 8) (bitsAt 14 w 18))
  | 0x65 => .ok (.lhu (regAt w 13) (regAt w 8) (bitsAt 14 w 18))
  | 0x66 => .ok (.lw (regAt w 13) (regAt w 8) (bitsAt 14 w 18))
  | 0x67 => .ok .lvwar
  | 0x6B => .ok (.jal (regAt w 8) (bitsAt 19 w 13))
  | 0x6C => .ok (.twoAddi (regAt w 13) (regAt w 8) (bitsAt 14 w 18))
  | 0x6D => .ok (.fourAddi (regAt w 13) (regAt w 8) (bitsAt 14 w 18))
  | 0x6E => .ok (.eightAddi (regAt w 13) (regAt w 8) (bitsAt 14 w 18))
  | 0x6F => .ok (.sixteenAddi (regAt w 13) (regAt w 8) (bitsAt 14 w 18))
  | 0x70 => .ok .sb
  | 0x71 => .ok .sc
  | 0x72 => .ok .sh
  | 0x73 => .ok (.sw (regAt w 13) (regAt w 8) (bitsAt 14 w 18))
  | 0x77 => .ok .swcr
  | op =>
    if op = p.opcL24.toNat then
      if p.provisional then decodeL24 w else .error (.provisionalOff op)
    else .error (.reservedOpcode op)

/-- Bit-field instructions of opcode byte AAh, by `op2` in bits 31:30 (R115). -/
def decodeBFAA (w : Nat) : Except Reject Instr :=
  match field w 30 2 with
  | 0 => .ok (.bfins (regAt w 13) (regAt w 8) (bitNoAt w 18) (bitNoAt w 24))
  | 1 => .ok (.bfset (regAt w 13) (regAt w 8) (bitNoAt w 18) (bitNoAt w 24))
  | 2 => .ok (.bfclr (regAt w 13) (regAt w 8) (bitNoAt w 18) (bitNoAt w 24))
  | _ => .ok (.bfchg (regAt w 13) (regAt w 8) (bitNoAt w 18) (bitNoAt w 24))

/-- Bit-field instructions of opcode byte ABh, by `op2` in bits 31:30; 3 is reserved (R115). -/
def decodeBFAB (w : Nat) : Except Reject Instr :=
  match field w 30 2 with
  | 0 => .ok (.bfextu (regAt w 13) (regAt w 8) (bitNoAt w 18) (bitNoAt w 24))
  | 1 => .ok (.bfext (regAt w 13) (regAt w 8) (bitNoAt w 18) (bitNoAt w 24))
  | 2 => .ok (.bfinsi (regAt w 13) (bitsAt 5 w 8) (bitNoAt w 18) (bitNoAt w 24))
  | fn => .error (.reservedFunction 0xAB fn)

/-- The 48-bit instructions, by the opcode byte (R112 to R116, R118). -/
def decode48 (p : Encodings) (w : Nat) : Except Reject Instr :=
  match field w 0 8 with
  | 0xAA => decodeBFAA w
  | 0xAB => decodeBFAB w
  | 0x80 => .ok (.addi48 (regAt w 13) (regAt w 8) (bitsAt 30 w 18))
  | 0x81 => .ok (.cmpi48 (codeAt w 13) (regAt w 8) (bitsAt 30 w 18))
  | 0x82 => .ok (.cmpil (codeAt w 13) (regAt w 8) (bitsAt 24 w 18))
  | 0x88 => .ok (.andi48 (regAt w 13) (regAt w 8) (bitsAt 30 w 18))
  | 0x89 => .ok (.ori48 (regAt w 13) (regAt w 8) (bitsAt 30 w 18))
  | 0x8A => .ok (.xori48 (regAt w 13) (regAt w 8) (bitsAt 30 w 18))
  | 0x8B => .ok .biti48
  | 0x8D => .ok .jsri
  | 0x8E => .ok .lws
  | 0x8F => .ok .lcl
  | 0x9B => if p.provisional then .ok (.jal48 (regAt w 8) (bitsAt 35 w 13)) else .error (.provisionalOff 0x9B)
  | 0x9D => if p.provisional then .ok (.cas (regAt w 23) (regAt w 8) (regAt w 13) (regAt w 18) (bitsAt 12 w 28)) else .error (.provisionalOff 0x9D)
  | 0xA0 => .ok (.lb48 (regAt w 13) (regAt w 8) (bitsAt 27 w 18))
  | 0xA1 => .ok (.lbu48 (regAt w 13) (regAt w 8) (bitsAt 27 w 18))
  | 0xA2 => .ok .lc48
  | 0xA3 => .ok .lcu48
  | 0xA4 => .ok (.lh48 (regAt w 13) (regAt w 8) (bitsAt 27 w 18))
  | 0xA5 => .ok (.lhu48 (regAt w 13) (regAt w 8) (bitsAt 27 w 18))
  | 0xA6 => .ok (.lw48 (regAt w 13) (regAt w 8) (bitsAt 27 w 18))
  | 0xA7 => .ok .lwar
  | 0xA8 => .ok (.mf (regAt w 8) (sprAt w 13))
  | 0xA9 => .ok (.mt (sprAt w 13) (regAt w 8))
  | 0xAC => .ok .lvb
  | 0xAD => .ok .lvc
  | 0xAE => .ok .lvh
  | 0xAF => .ok .lvw
  | 0xB0 => .ok .sb48
  | 0xB1 => .ok .sc48
  | 0xB2 => .ok .sh48
  | 0xB3 => .ok (.sw48 (regAt w 13) (regAt w 8) (bitsAt 27 w 18))
  | 0xB7 => .ok .swcr48
  | 0xB8 => .ok .llax
  | op => .error (.reservedOpcode op)

/-- The 64-bit instructions, by the opcode byte (R117, R118). -/
def decode64 (w : Nat) : Except Reject Instr :=
  match field w 0 8 with
  | 0xE0 => .ok (.addis (regAt w 13) (regAt w 8) (bitsAt 40 w 18))
  | 0xE1 => .ok (.cmpiu (codeAt w 13) (regAt w 8) (bitsAt 40 w 18))
  | 0xE8 => .ok (.andis (regAt w 13) (regAt w 8) (bitsAt 40 w 18))
  | 0xE9 => .ok (.oris (regAt w 13) (regAt w 8) (bitsAt 40 w 18))
  | 0xEA => .ok (.xoris (regAt w 13) (regAt w 8) (bitsAt 40 w 18))
  | op => .error (.reservedOpcode op)

/-- The instruction that the number `w` holds; its length is in the opcode byte (R91, R121). `p` gives the
parameters `PROVISIONAL_ENCODINGS` and `OPC_L24`. -/
def decodeWord (p : Encodings) (w : Nat) : Except Reject Instr :=
  match field w 6 2 with
  | 0 => decode16 w
  | 1 => decode32 p w
  | 2 => decode48 p w
  | _ => decode64 w

/-- The number that bytes hold, the first byte least significant (R63). -/
def wordOfBytes : List Byte → Nat
  | [] => 0
  | b :: bs => b.toNat + 256 * wordOfBytes bs

/-- The low `n` bytes of a number, the least significant first (R63). -/
def bytesOfWord : Nat → Nat → List Byte
  | 0, _ => []
  | n + 1, w => BitVec.ofNat 8 w :: bytesOfWord n (w / 256)

/-- Decodes the first instruction of a list of bytes and answers it with the bytes after it; total (R91, R121). -/
def decodeBytes (p : Encodings) (bs : List Byte) : Except Reject (Instr × List Byte) :=
  match bs with
  | [] => .error .tooShort
  | b :: _ =>
    let len := lengthOf b.toNat
    if bs.length < len then .error .tooShort
    else (decodeWord p (wordOfBytes (bs.take len))).map fun i => (i, bs.drop len)

/-- The instruction read from an opcode-table word of `nbits` bits: its bytes in memory order, zeros after them up to the
longest instruction, given to `decodeBytes` with the decided parameters (R5). -/
def decodeTableWord (nbits w : Nat) : Option Instr :=
  match decodeBytes Config.encodings (bytesOfWord 8 (w % 2 ^ nbits)) with
  | .ok (i, _) => some i
  | .error _ => none

/-! ## The encoder: the same formats, unused bits zero (R96) -/

/-- Formats CI and CMS: `op6` at 7:2, a register at 12:8, a split value with its upper part at 15:13 (R99, R104). -/
def encCI (op6 r v : Nat) : Nat := v % 4 + op6 * 2 ^ 2 + r * 2 ^ 8 + v / 4 * 2 ^ 13

/-- Format CI10 (R100). -/
def encCI10 (op6 v : Nat) : Nat := v % 4 + op6 * 2 ^ 2 + v / 4 * 2 ^ 8

/-- Format CR: opcode byte, `Rt` at 12:8, `Ra3` at 15:13 (R101). -/
def encCR (op rt ra3 : Nat) : Nat := op + rt * 2 ^ 8 + ra3 * 2 ^ 13

/-- Format CB (R102). -/
def encCB (op6 pn v : Nat) : Nat := v % 4 + op6 * 2 ^ 2 + pn * 2 ^ 8 + v / 4 * 2 ^ 11

/-- Format CM (R103). -/
def encCM (op6 rt3 ra3 v : Nat) : Nat := v % 4 + op6 * 2 ^ 2 + rt3 * 2 ^ 8 + ra3 * 2 ^ 11 + v / 4 * 2 ^ 14

/-- Format CINT (R105). -/
def encINT (v : Nat) : Nat := v % 2 + 0x30 + v / 2 * 2 ^ 8

/-- Format C33: the second byte selects (R106). -/
def enc33 (sub8 : Nat) : Nat := 0x33 + sub8 * 2 ^ 8

/-- Formats RI, BT, M32, RI48, RIL48, M48, IS64: `Ra` at 12:8, the second field at 17:13, the value from bit 18
(R107, R109 (a), R112, R113, R117). -/
def encRI (op r ra v : Nat) : Nat := op + ra * 2 ^ 8 + r * 2 ^ 13 + v * 2 ^ 18

/-- Formats RR and L24/RRR and CK: `Ra` at 12:8, `Rb` at 17:13, a third field at 22:18, the selector bits from 23
(R108, R109 (b), R111). -/
def encRRR (op sel r rb ra : Nat) : Nat := op + ra * 2 ^ 8 + rb * 2 ^ 13 + r * 2 ^ 18 + sel * 2 ^ 23

/-- Layouts R and C of the container: its opcode byte, `Ra` at 12:8, `Rt` at 17:13, `func6` at 23:18, `K` at 31:26 (R110, R111). -/
def encR (op k func6 rt ra : Nat) : Nat := op + ra * 2 ^ 8 + rt * 2 ^ 13 + func6 * 2 ^ 18 + k * 2 ^ 26

/-- Format BR: `Pn` at 10:8, the condition at 16:13, the displacement from bit 18 (R109 (c)). -/
def encBcc (cond pn v : Nat) : Nat := 0x52 + pn * 2 ^ 8 + cond * 2 ^ 13 + v * 2 ^ 18

/-- Formats J32, J48 and SPR48: a register at 12:8, a value from bit 13 (R109 (d), R114, R116 (a)). -/
def encJ (op r v : Nat) : Nat := op + r * 2 ^ 8 + v * 2 ^ 13

/-- Format CAS48 (R116 (b)). -/
def encCAS (rt rc rb ra v : Nat) : Nat := 0x9D + ra * 2 ^ 8 + rb * 2 ^ 13 + rc * 2 ^ 18 + rt * 2 ^ 23 + v * 2 ^ 28

/-- Format BF48 (R115). -/
def encBF (op op2 rt ra mb me : Nat) : Nat :=
  op + ra * 2 ^ 8 + rt * 2 ^ 13 + mb * 2 ^ 18 + me * 2 ^ 24 + op2 * 2 ^ 30

/-- The word of an instruction: its number of `8 * byteLength` bits (R99 to R117). `p` gives the container's byte. -/
def encode (p : Encodings) : Instr → Nat
  | .addi16 rt imm => encCI 0x00 rt.val imm.toNat
  | .addiSp imm => encCI10 0x01 imm.toNat
  | .ldi rt imm => encCI 0x02 rt.val imm.toNat
  | .add16 rt ra3 => encCR 0x0C rt.val ra3.val
  | .and16 rt ra3 => encCR 0x0E rt.val ra3.val
  | .or16 rt ra3 => encCR 0x0F rt.val ra3.val
  | .lw16 rt3 ra3 disp => encCM 0x04 rt3.val ra3.val disp.toNat
  | .sw16 rs3 ra3 disp => encCM 0x05 rs3.val ra3.val disp.toNat
  | .lwBp rt disp => encCI 0x06 rt.val disp.toNat
  | .swBp rs disp => encCI 0x07 rs.val disp.toNat
  | .beqs pn disp => encCB 0x08 pn.val disp.toNat
  | .bnes pn disp => encCB 0x09 pn.val disp.toNat
  | .lwSp rt disp => encCI 0x0A rt.val disp.toNat
  | .swSp rs disp => encCI 0x0B rs.val disp.toNat
  | .int offset => encINT offset.toNat
  | .rts => enc33 0x00
  | .rti => enc33 0x01
  | .rtd => enc33 0x02
  | .rte => enc33 0x03
  | .sync => enc33 0x80
  | .memdb => enc33 0x82
  | .memsb => enc33 0x83
  | .cli => enc33 0x90
  | .sei => enc33 0x91
  | .nopE1 => enc33 0xE1
  | .nopEA => enc33 0xEA
  | .mrk1 => enc33 0xE4
  | .mrk2 => enc33 0xE5
  | .mrk3 => enc33 0xE6
  | .mrk4 => enc33 0xE7
  | .addiBp imm => encCI10 0x0D imm.toNat
  | .jal16 disp => encCI10 0x0E disp.toNat
  | .addi rt ra imm => encRI 0x40 rt.val ra.val imm.toNat
  | .cmpi pt ra imm => encRI 0x41 pt.val ra.val imm.toNat
  | .andi rt ra imm => encRI 0x48 rt.val ra.val imm.toNat
  | .ori rt ra imm => encRI 0x49 rt.val ra.val imm.toNat
  | .xori rt ra imm => encRI 0x4A rt.val ra.val imm.toNat
  | .biti pt ra imm => encRI 0x4B pt.val ra.val imm.toNat
  | .twoAddi rt ra imm => encRI 0x6C rt.val ra.val imm.toNat
  | .fourAddi rt ra imm => encRI 0x6D rt.val ra.val imm.toNat
  | .eightAddi rt ra imm => encRI 0x6E rt.val ra.val imm.toNat
  | .sixteenAddi rt ra imm => encRI 0x6F rt.val ra.val imm.toNat
  | .lb rt ra disp => encRI 0x60 rt.val ra.val disp.toNat
  | .lbu rt ra disp => encRI 0x61 rt.val ra.val disp.toNat
  | .lh rt ra disp => encRI 0x64 rt.val ra.val disp.toNat
  | .lhu rt ra disp => encRI 0x65 rt.val ra.val disp.toNat
  | .lw rt ra disp => encRI 0x66 rt.val ra.val disp.toNat
  | .sw rs ra disp => encRI 0x73 rs.val ra.val disp.toNat
  | .add rt ra rb => encRRR 0x42 0x000 rt.val rb.val ra.val
  | .addo rt ra rb => encRRR 0x42 0x001 rt.val rb.val ra.val
  | .sub rt ra rb => encRRR 0x42 0x008 rt.val rb.val ra.val
  | .subo rt ra rb => encRRR 0x42 0x009 rt.val rb.val ra.val
  | .xor rt ra rb => encRRR 0x42 0x050 rt.val rb.val ra.val
  | .cmp pt ra rb => encRRR 0x42 0x010 pt.val rb.val ra.val
  | .and rt ra rb => encRRR 0x42 0x040 rt.val rb.val ra.val
  | .or rt ra rb => encRRR 0x42 0x048 rt.val rb.val ra.val
  | .nand rt ra rb => encRRR 0x42 0x060 rt.val rb.val ra.val
  | .nor rt ra rb => encRRR 0x42 0x068 rt.val rb.val ra.val
  | .chk pt ra rb rc => encRRR 0x59 (0x000 + pt.val) rc.val rb.val ra.val
  | .chku pt ra rb rc => encRRR 0x59 (0x008 + pt.val) rc.val rb.val ra.val
  | .bf pn disp => encBcc 0 pn.val disp.toNat
  | .bt pn disp => encBcc 1 pn.val disp.toNat
  | .beq pn disp => encBcc 2 pn.val disp.toNat
  | .bne pn disp => encBcc 3 pn.val disp.toNat
  | .ble pn disp => encBcc 4 pn.val disp.toNat
  | .bgt pn disp => encBcc 5 pn.val disp.toNat
  | .bge pn disp => encBcc 6 pn.val disp.toNat
  | .blt pn disp => encBcc 7 pn.val disp.toNat
  | .bleu pn disp => encBcc 8 pn.val disp.toNat
  | .bgtu pn disp => encBcc 9 pn.val disp.toNat
  | .bgeu pn disp => encBcc 10 pn.val disp.toNat
  | .bltu pn disp => encBcc 11 pn.val disp.toNat
  | .bsig pn disp => encBcc 13 pn.val disp.toNat
  | .jal rt offset => encJ 0x6B rt.val offset.toNat
  | .xnor rt ra rb => encRRR p.opcL24.toNat 0x031 rt.val rb.val ra.val
  | .andc rt ra rb => encRRR p.opcL24.toNat 0x038 rt.val rb.val ra.val
  | .lbux rt ra rb => encRRR p.opcL24.toNat 0x080 rt.val rb.val ra.val
  | .lbx rt ra rb => encRRR p.opcL24.toNat 0x081 rt.val rb.val ra.val
  | .lhux rt ra rb => encRRR p.opcL24.toNat 0x088 rt.val rb.val ra.val
  | .lhx rt ra rb => encRRR p.opcL24.toNat 0x089 rt.val rb.val ra.val
  | .div rt ra rb => encRRR p.opcL24.toNat 0x0F0 rt.val rb.val ra.val
  | .divu rt ra rb => encRRR p.opcL24.toNat 0x0F1 rt.val rb.val ra.val
  | .shl rt ra rb => encRRR p.opcL24.toNat 0x150 rt.val rb.val ra.val
  | .shru rt ra rb => encRRR p.opcL24.toNat 0x158 rt.val rb.val ra.val
  | .shr rt ra rb => encRRR p.opcL24.toNat 0x159 rt.val rb.val ra.val
  | .twoAdd rt ra rb => encRRR p.opcL24.toNat 0x160 rt.val rb.val ra.val
  | .fourAdd rt ra rb => encRRR p.opcL24.toNat 0x168 rt.val rb.val ra.val
  | .eightAdd rt ra rb => encRRR p.opcL24.toNat 0x170 rt.val rb.val ra.val
  | .sixteenAdd rt ra rb => encRRR p.opcL24.toNat 0x178 rt.val rb.val ra.val
  | .neg rt ra => encR p.opcL24.toNat 0x01 0x01 rt.val ra.val
  | .not rt ra => encR p.opcL24.toNat 0x01 0x02 rt.val ra.val
  | .abs rt ra => encR p.opcL24.toNat 0x01 0x03 rt.val ra.val
  | .com rt ra => encR p.opcL24.toNat 0x01 0x0B rt.val ra.val
  | .jalr rt ra => encR p.opcL24.toNat 0x01 0x3F rt.val ra.val
  | .cacheInvICache ra => encR p.opcL24.toNat 0x1B 0 0 ra.val
  | .cacheInvILine ra => encR p.opcL24.toNat 0x1B 1 0 ra.val
  | .cacheInvDCache ra => encR p.opcL24.toNat 0x1B 32 0 ra.val
  | .cacheInvDLine ra => encR p.opcL24.toNat 0x1B 33 0 ra.val
  | .addi48 rt ra imm => encRI 0x80 rt.val ra.val imm.toNat
  | .cmpi48 pt ra imm => encRI 0x81 pt.val ra.val imm.toNat
  | .cmpil pt ra imm => encRI 0x82 pt.val ra.val imm.toNat
  | .andi48 rt ra imm => encRI 0x88 rt.val ra.val imm.toNat
  | .ori48 rt ra imm => encRI 0x89 rt.val ra.val imm.toNat
  | .xori48 rt ra imm => encRI 0x8A rt.val ra.val imm.toNat
  | .jal48 rt offset => encJ 0x9B rt.val offset.toNat
  | .cas rt ra rb rc disp => encCAS rt.val rc.val rb.val ra.val disp.toNat
  | .lb48 rt ra disp => encRI 0xA0 rt.val ra.val disp.toNat
  | .lbu48 rt ra disp => encRI 0xA1 rt.val ra.val disp.toNat
  | .lh48 rt ra disp => encRI 0xA4 rt.val ra.val disp.toNat
  | .lhu48 rt ra disp => encRI 0xA5 rt.val ra.val disp.toNat
  | .lw48 rt ra disp => encRI 0xA6 rt.val ra.val disp.toNat
  | .sw48 rs ra disp => encRI 0xB3 rs.val ra.val disp.toNat
  | .mf rt spr => encJ 0xA8 rt.val spr.val
  | .mt spr ra => encJ 0xA9 ra.val spr.val
  | .bfins rt ra mb me => encBF 0xAA 0 rt.val ra.val mb.val me.val
  | .bfset rt ra mb me => encBF 0xAA 1 rt.val ra.val mb.val me.val
  | .bfclr rt ra mb me => encBF 0xAA 2 rt.val ra.val mb.val me.val
  | .bfchg rt ra mb me => encBF 0xAA 3 rt.val ra.val mb.val me.val
  | .bfextu rt ra mb me => encBF 0xAB 0 rt.val ra.val mb.val me.val
  | .bfext rt ra mb me => encBF 0xAB 1 rt.val ra.val mb.val me.val
  | .bfinsi rt imm mb me => encBF 0xAB 2 rt.val imm.toNat mb.val me.val
  | .addis rt ra imm => encRI 0xE0 rt.val ra.val imm.toNat
  | .cmpiu pt ra imm => encRI 0xE1 pt.val ra.val imm.toNat
  | .andis rt ra imm => encRI 0xE8 rt.val ra.val imm.toNat
  | .oris rt ra imm => encRI 0xE9 rt.val ra.val imm.toNat
  | .xoris rt ra imm => encRI 0xEA rt.val ra.val imm.toNat
  | .lc => 0x62
  | .lcu => 0x63
  | .lvwar => 0x67
  | .sb => 0x70
  | .sc => 0x71
  | .sh => 0x72
  | .swcr => 0x77
  | .biti48 => 0x8B
  | .jsri => 0x8D
  | .lws => 0x8E
  | .lcl => 0x8F
  | .lc48 => 0xA2
  | .lcu48 => 0xA3
  | .lwar => 0xA7
  | .lvb => 0xAC
  | .lvc => 0xAD
  | .lvh => 0xAE
  | .lvw => 0xAF
  | .sb48 => 0xB0
  | .sc48 => 0xB1
  | .sh48 => 0xB2
  | .swcr48 => 0xB7
  | .llax => 0xB8

/-- The length of an instruction in bytes: that of its opcode byte (R91, R118). -/
def byteLength : Instr → Nat
  | .addi16 _ _ | .addiSp _ | .ldi _ _ | .add16 _ _ | .and16 _ _ | .or16 _ _ | .lw16 _ _ _ | .sw16 _ _ _ | .lwBp _ _
  | .swBp _ _ | .beqs _ _ | .bnes _ _ | .lwSp _ _ | .swSp _ _ | .int _ | .rts | .rti | .rtd | .rte | .sync | .memdb
  | .memsb | .cli | .sei | .nopE1 | .nopEA | .mrk1 | .mrk2 | .mrk3 | .mrk4 | .addiBp _ | .jal16 _ => 2
  | .addi _ _ _ | .cmpi _ _ _ | .andi _ _ _ | .ori _ _ _ | .xori _ _ _ | .biti _ _ _ | .twoAddi _ _ _
  | .fourAddi _ _ _ | .eightAddi _ _ _ | .sixteenAddi _ _ _ | .lb _ _ _ | .lbu _ _ _ | .lh _ _ _ | .lhu _ _ _
  | .lw _ _ _ | .sw _ _ _ | .add _ _ _ | .addo _ _ _ | .sub _ _ _ | .subo _ _ _ | .xor _ _ _ | .cmp _ _ _
  | .and _ _ _ | .or _ _ _ | .nand _ _ _ | .nor _ _ _ | .chk _ _ _ _ | .chku _ _ _ _ | .bf _ _ | .bt _ _ | .beq _ _
  | .bne _ _ | .ble _ _ | .bgt _ _ | .bge _ _ | .blt _ _ | .bleu _ _ | .bgtu _ _ | .bgeu _ _ | .bltu _ _ | .bsig _ _
  | .jal _ _ | .xnor _ _ _ | .andc _ _ _ | .lbux _ _ _ | .lbx _ _ _ | .lhux _ _ _ | .lhx _ _ _ | .div _ _ _
  | .divu _ _ _ | .shl _ _ _ | .shru _ _ _ | .shr _ _ _ | .twoAdd _ _ _ | .fourAdd _ _ _ | .eightAdd _ _ _
  | .sixteenAdd _ _ _ | .neg _ _ | .not _ _ | .abs _ _ | .com _ _ | .jalr _ _ | .cacheInvICache _ | .cacheInvILine _
  | .cacheInvDCache _ | .cacheInvDLine _ | .lc | .lcu | .lvwar | .sb | .sc | .sh | .swcr => 4
  | .addi48 _ _ _ | .cmpi48 _ _ _ | .cmpil _ _ _ | .andi48 _ _ _ | .ori48 _ _ _ | .xori48 _ _ _ | .jal48 _ _
  | .cas _ _ _ _ _ | .lb48 _ _ _ | .lbu48 _ _ _ | .lh48 _ _ _ | .lhu48 _ _ _ | .lw48 _ _ _ | .sw48 _ _ _ | .mf _ _
  | .mt _ _ | .bfins _ _ _ _ | .bfset _ _ _ _ | .bfclr _ _ _ _ | .bfchg _ _ _ _ | .bfextu _ _ _ _ | .bfext _ _ _ _
  | .bfinsi _ _ _ _ | .biti48 | .jsri | .lws | .lcl | .lc48 | .lcu48 | .lwar | .lvb | .lvc | .lvh | .lvw | .sb48
  | .sc48 | .sh48 | .swcr48 | .llax => 6
  | .addis _ _ _ | .cmpiu _ _ _ | .andis _ _ _ | .oris _ _ _ | .xoris _ _ _ => 8

/-- The bytes of an instruction in memory order (R63). -/
def encodeBytes (p : Encodings) (i : Instr) : List Byte := bytesOfWord (byteLength i) (encode p i)

end Sys2Proof
end

