-- ==== Sys2Proof/Machine/State.lean ====
section
/-! DEFINITION. The state of DSD2 as plain data, the reasons a step can stop, and the state after reset (R20 to R47, R340,
R364). -/

namespace Sys2Proof.Machine

/-- A compare result register: three flags (R29). -/
structure CmpReg where
  /-- The compared values are equal, or a tested result is zero, or a value is inside its bounds. -/
  eq : Bool
  /-- Signed less than, or a tested result is negative. -/
  lt : Bool
  /-- Unsigned less than, or (BITI) a tested result is odd. -/
  ltu : Bool
deriving DecidableEq, Repr

/-- The eleven kinds of synchronous exception (R340). -/
inductive ExcKind where
  | integerOverflow | divideByZero | privilegeViolation
  | dbe | dbg | tlb | lmt
  | illegalInstruction | misalignedFetch | misalignedData | fetchFault
deriving DecidableEq, Repr

/-- What an access asks the oracle `mem_fault` about (R69). -/
inductive AccessKind where
  | load | store | fetch
deriving DecidableEq, Repr

/-- The answers of `mem_fault` other than none (R69, R344). -/
inductive BusFault where
  | dbe | dbg | tlb | lmt
deriving DecidableEq, Repr

/-- One answer of the oracle: the access of `size` bytes at `addr` of this kind is answered with `answer` (R69). -/
structure AccessFault where
  addr   : Word
  size   : Nat
  kind   : AccessKind
  answer : BusFault
deriving DecidableEq, Repr

/-- What the environment presents to the machine during one step (R46 (c), (d), R69, R213, R348; log 13). -/
structure Inputs where
  /-- `irq_pending` with `IRQ_VECTOR`: a request and the vector it supplies, or no request (R348). -/
  irq    : Option (BitVec 9)
  /-- The external signal that BSIG tests (R213). -/
  signal : Bool
  /-- The accesses that the environment answers with a fault; every other access is answered `none` (R69). -/
  faults : List AccessFault
deriving DecidableEq, Repr

/-- The environment that never asks for anything: what is presented once the list of inputs is exhausted (R69, R213, R348). -/
def Inputs.quiet : Inputs := { irq := none, signal := false, faults := [] }

/-- `EXC_VECTOR(e)` and `EXC_CODE(e)` of one exception kind (R353, R354). -/
structure TrapAssignment where
  kind   : ExcKind
  vector : BitVec 9
  code   : Word
deriving DecidableEq, Repr

/-- The open parameters of R5 that are fixed for a run; no step changes them (logs 10, 11, 12, 23, 24). -/
structure Platform where
  /-- `SPR_EPC`, the number by which MF and MT reach EPC, if it has one (R35). -/
  sprEpc : Option SprNo
  /-- `SPR_VBA`, the number by which MF and MT reach VBA, if it has one (R36). -/
  sprVba : Option SprNo
  /-- MID, special register 48, read-only (R38). -/
  mid : Word
  /-- FEAT, special register 49, read-only (R38). -/
  feat : Word
  /-- The exception kinds that have been given a vector and a code; the first entry of a kind counts (R353, R354, R363). -/
  traps : List TrapAssignment
  /-- MF is in `PRIV_EXTRA` (R343). -/
  privMf : Bool
  /-- MT is in `PRIV_EXTRA` (R343). -/
  privMt : Bool
  /-- CACHE is in `PRIV_EXTRA` (R343). -/
  privCache : Bool
  /-- `PROVISIONAL_ENCODINGS` and `OPC_L24`, the parameters of the decoder (R110, R116, R121). -/
  encodings : Encodings
deriving DecidableEq, Repr

/-- The platform after reset: the spec's own defaults, no number and no vector given (R5, R35, R363). DESIGN CHOICE, unsafe
(logs 10, 11, 23, 24). -/
def Platform.initial : Platform :=
  { sprEpc := none, sprVba := none, mid := Config.midValue, feat := Config.featValue, traps := [],
    privMf := false, privMt := false, privCache := false, encodings := Config.encodings }

/-- The special registers that a number can name (R32, R35, R36). -/
inductive Spr where
  | mid | feat | tick | lc | pregs | asid | exc | bir | breakout | epc | vba
deriving DecidableEq, Repr

/-- Memory: the bytes that hold a value, by address, addresses strictly rising (R60, log 8). -/
abbrev Memory := List Host.Cell

/-- The state of the machine (R20 to R46). -/
structure State where
  /-- r0 to r31; read and written by `State.reg` and `State.setReg`, where r0 reads zero (R20, R21). -/
  regs : Vector Word 32
  /-- The address of the instruction being executed (R26). -/
  pc : Word
  /-- P0 to P7 (R29). -/
  preds : Vector CmpReg 8
  /-- Interrupt mask: set, interrupts are held off (R33). -/
  im : Bool
  /-- Kernel mode (R34). -/
  km : Bool
  /-- The interrupt mask before the last trap (R46 (b)). -/
  pim : Bool
  /-- The mode before the last trap (R46 (b)). -/
  pkm : Bool
  /-- CLI's delay: the instructions still to complete before `im` clears; 0 when no CLI is pending (R46 (a), R312). -/
  cliPending : Nat
  /-- EPC, the return address of the last trap (R35). -/
  epc : Word
  /-- The vector table address register (R36). -/
  vba : Word
  /-- EXC, the exception cause register, SPR 59 (R37). -/
  exc : Word
  /-- LC, the loop counter, SPR 51 (R40). -/
  lc : Word
  /-- ASID, SPR 53, inert storage (R42). -/
  asid : Word
  /-- BIR, the breakout index register, SPR 60 (R43). -/
  bir : Word
  /-- TICK, SPR 50: the value last read (R39; log 6). -/
  tick : Word
  /-- Memory (R60). -/
  mem : Memory
  /-- The inputs of the coming steps, the first for the next step (R46 (c), (d), R69; log 13). -/
  inputs : List Inputs
  /-- The open parameters (R5). -/
  platform : Platform
  /-- The MODEL's own counter: which free value a draw of this step takes (R9; log 7). -/
  draws : Nat
deriving DecidableEq, Repr

/-- Why the machine stops with a fault. Every one is safe: the hardware may go on, the model claims nothing of it. -/
inductive Fault where
  /-- An exception of kind `kind` raised at `pc`, with the data or parcel address where one applies, on a platform that gives
  the kind no vector: the terminal fault of R363, raised by `State.raise`. Safe. -/
  | exception (kind : ExcKind) (pc : Word) (addr : Option Word)
  /-- The access or fetch at `addr` covers a byte of memory that nothing has defined: `Unspecified` of R364 (c), raised by
  data reads (R70) and by fetch. Safe. -/
  | unspecifiedMemory (addr : Word)
deriving DecidableEq, Repr

/-- Why an instruction is refused. Every one is safe: nothing is claimed of what the hardware does. -/
inductive Refusal where
  /-- The instruction has no meaning in this model yet: raised by exec's own arms alone. Safe. -/
  | notModelled (mnemonic : String)
  /-- `Unsupported(mnemonic)`: a name in the opcode map that the spec gives no operand, width or effect, raised by the
  map-only instructions (R128, R324, R325). Safe. -/
  | unsupported (mnemonic : String)
deriving DecidableEq, Repr

/-- What an access answers: a value, an exception with the address it carries, or a byte that holds no value. -/
inductive Access (α : Type) where
  | value (v : α)
  | raised (e : ExcKind) (addr : Option Word)
  | missing (addr : Word)
deriving DecidableEq, Repr

/-- The outcome of an instruction or a step. -/
abbrev Result := Host.Outcome State Fault Refusal

/-- The machine right after reset (R47, R390). The spec gives r0, `km`, `im` and `cliPending`; the other values are the
model's (logs 1 to 13). -/
def State.reset : State :=
  { regs := Vector.replicate 32 0, pc := Config.resetPc,
    preds := Vector.replicate 8 { eq := false, lt := false, ltu := false },
    im := true, km := true, pim := true, pkm := true, cliPending := 0,
    epc := 0, vba := 0, exc := 0, lc := 0, asid := 0, bir := 0, tick := 0,
    mem := [], inputs := [], platform := Platform.initial, draws := 0 }

end Sys2Proof.Machine
end

