-- ==== Sys2Proof/Machine/Flags.lean ====
section
/-! DEFINITION. Every computation of flags and every test of them (R29, R41, R166, R212, R250 to R257). -/

namespace Sys2Proof.Machine

/-- `compare(a, b)`: equal, signed less than, unsigned less than (R250). -/
def compareFlags (a b : Word) : CmpReg := { eq := a == b, lt := a.slt b, ltu := a.ult b }

/-- The flags of BITI's result: zero, negative, odd (R251). -/
def testFlags (r : Word) : CmpReg := { eq := r == 0, lt := r.msb, ltu := r.getLsbD 0 }

/-- The flags of CMPIL: the low 24 bits of `a` against the immediate; both orders are the unsigned one (R256). -/
def lowerFlags (a : Word) (imm : BitVec 24) : CmpReg :=
  let low := a.setWidth 24
  { eq := low == imm, lt := low.ult imm, ltu := low.ult imm }

/-- The upper 40 bits of a value with the low 24 bits cleared: the left side of CMPIU (R257). -/
def upperPart (a : Word) : Word := a &&& 0xFFFFFFFFFF000000#64

/-- Inside signed bounds, the lower included, the upper excluded (R252). -/
def insideSigned (a lo hi : Word) : Bool := lo.sle a && a.slt hi

/-- Inside unsigned bounds, the lower included, the upper excluded (R253). -/
def insideUnsigned (a lo hi : Word) : Bool := lo.ule a && a.ult hi

/-- The signed sum does not fit 64 bits (R166). -/
def addOverflows (a b : Word) : Bool := a.msb == b.msb && (a + b).msb != a.msb

/-- The signed difference does not fit 64 bits (R166). -/
def subOverflows (a b : Word) : Bool := a.msb != b.msb && (a - b).msb != a.msb

/-! ## Branch conditions (R212) -/

/-- Less or equal: conditions 4 and, negated, 5. -/
def CmpReg.le (p : CmpReg) : Bool := p.lt || p.eq

/-- Unsigned less or equal: conditions 8 and, negated, 9. -/
def CmpReg.leu (p : CmpReg) : Bool := p.ltu || p.eq

/-! ## The packing of PREGS (R41) -/

/-- The four bits of one compare register in PREGS: eq, lt, ltu from bit 0, bit 3 zero. -/
def CmpReg.nibble (p : CmpReg) : Nat := p.eq.toNat + 2 * p.lt.toNat + 4 * p.ltu.toNat

/-- The compare registers packed four bits apart, the first lowest. -/
def packFlags : List CmpReg → Nat
  | [] => 0
  | p :: ps => p.nibble + 16 * packFlags ps

/-- PREGS as MF reads it. -/
def packPregs (preds : Vector CmpReg 8) : Word := BitVec.ofNat 64 (packFlags preds.toList)

/-- The flags that PREGS bits `4i+2 : 4i` give compare register `i`. -/
def flagsAt (v : Word) (i : Nat) : CmpReg :=
  { eq := v.getLsbD (4 * i), lt := v.getLsbD (4 * i + 1), ltu := v.getLsbD (4 * i + 2) }

/-- The eight compare registers as MT to PREGS writes them; the other bits are ignored. -/
def unpackPregs (v : Word) : Vector CmpReg 8 :=
  #v[flagsAt v 0, flagsAt v 1, flagsAt v 2, flagsAt v 3, flagsAt v 4, flagsAt v 5, flagsAt v 6, flagsAt v 7]

end Sys2Proof.Machine
end

