-- ==== Sys2Proof/Machine/Operands.lean ====
section
/-! DEFINITION. Every operand form: register codes, extended and shifted immediates, displacements, bit-field masks and the
extension of a loaded value (R23, R97 to R117, R230, R238, R270). -/

namespace Sys2Proof.Machine

/-- The register of a three-bit code: r8 to r15 (R23). -/
def reg3 (c : Reg3) : Reg := ⟨8 + c.val, by omega⟩

/-- A sign-extended immediate or displacement (R97). -/
def sext {n : Nat} (imm : BitVec n) : Word := imm.signExtend 64

/-- The displacement of a 16-bit load or store: sign-extended, then shifted left twice (R104). -/
def scaledDisp {n : Nat} (disp : BitVec n) : Word := sext disp <<< 2

/-- The displacement of Bcc: bits 14:1 are encoded, bit 0 is zero, the whole sign-extended (R109 (c), R211). -/
def branchDisp (disp : BitVec 14) : Word := sext (disp ++ (0 : BitVec 1))

/-- A 40-bit immediate placed at bits 63:24, the low bits zero (R117). -/
def shiftedZeros (imm : BitVec 40) : Word := imm ++ (0 : BitVec 24)

/-- A 40-bit immediate placed at bits 63:24, the low bits one: the operand of ANDIS (R117, R185). -/
def shiftedOnes (imm : BitVec 40) : Word := imm ++ (BitVec.allOnes 24)

/-- `w = me - mb + 1`, the width of the field from bit `mb` to bit `me`, both included (R230); used only where `mb ≤ me`. -/
def fieldWidth (mb me : BitNo) : Nat := me.val + 1 - mb.val

/-- `mask(mb, me)`: ones from bit `mb` to bit `me` (R230). -/
def bitMask (mb me : BitNo) : Word := BitVec.ofNat 64 ((2 ^ fieldWidth mb me - 1) * 2 ^ mb.val)

/-- The field of `v` from bit `mb` to bit `me`, moved to bit 0 (R233, R234). -/
def extractField (v : Word) (mb me : BitNo) : BitVec (fieldWidth mb me) := (v >>> mb.val).setWidth (fieldWidth mb me)

/-- `old` with its field from `mb` to `me` replaced by the low bits of `v` (R235, R236). -/
def insertField (old v : Word) (mb me : BitNo) : Word :=
  (old &&& ~~~ bitMask mb me) ||| ((v <<< mb.val) &&& bitMask mb me)

/-- The amount of a shift: the low six bits of the register (R238). -/
def shiftAmount (v : Word) : Nat := v.toNat % 64

/-- A loaded byte, sign-extended (R271). -/
def sextByte (v : Word) : Word := (v.setWidth 8).signExtend 64

/-- A loaded half-word, sign-extended (R275). -/
def sextHalf (v : Word) : Word := (v.setWidth 16).signExtend 64

/-- A loaded byte or half-word, zero-extended, or a loaded word: the bytes as they stand (R272, R276, R277). -/
def zextLoaded (v : Word) : Word := v

end Sys2Proof.Machine
end

