-- ==== Sys2Proof/Machine/Ops.lean ====
section
/-! DEFINITION. The named operations that the meanings share: registers, memory and its oracle, special registers, taking an
exception and returning from one, and the completion of an instruction. -/

namespace Sys2Proof.Machine

/-! ## Registers and the pc -/

/-- `x[i]`: r0 reads zero (R9, R21). -/
def State.reg (s : State) (r : Reg) : Word := if r = 0 then 0 else s.regs[r]

/-- `x[i] <- v`: a write to r0 is discarded (R9, R21). -/
def State.setReg (s : State) (r : Reg) (v : Word) : State :=
  if r = 0 then s else { s with regs := s.regs.set r v }

/-- `P[i]` (R9, R29). -/
def State.pred (s : State) (p : PReg) : CmpReg := s.preds[p]

/-- `P[i] <- (eq, lt, ltu)` (R9). -/
def State.setPred (s : State) (p : PReg) (v : CmpReg) : State := { s with preds := s.preds.set p v }

/-- `npc`, the address after an instruction of `len` bytes (R9, R26). -/
def State.npc (s : State) (len : Nat) : Word := s.pc + BitVec.ofNat 64 len

/-- `pc <- t` (R9). -/
def State.jump (s : State) (t : Word) : State := { s with pc := t }

/-- `pc <- npc`: the end of an instruction that transfers nowhere (R27). -/
def State.advance (s : State) (len : Nat) : State := s.jump (s.npc len)

/-- What the environment presents during this step (R46 (c), (d); log 13). -/
def State.input (s : State) : Inputs := s.inputs.headD Inputs.quiet

/-! ## Memory: the list of bytes that hold a value -/

/-- What an address with no entry reads as: no value (R47, R70; log 8). -/
def unlistedByte : Option Byte := none

/-- The byte at an address, if it holds a value. -/
def Memory.read : Memory → Nat → Option Byte
  | [], _ => unlistedByte
  | (k, b) :: m, a => if k = a then some b else Memory.read m a

/-- One byte written, the addresses kept strictly rising. -/
def Memory.write : Memory → Nat → Byte → Memory
  | [], a, b => [(a, b)]
  | (k, c) :: m, a, b =>
    if a < k then (a, b) :: (k, c) :: m
    else if a = k then (a, b) :: m
    else (k, c) :: Memory.write m a b

/-- The first address of a memory, if it has one, is above `a`. -/
def Memory.above (a : Nat) : Memory → Bool
  | [] => true
  | (k, _) :: _ => a < k

/-- The canonical form: addresses strictly rising and inside the address space (R60). -/
def Memory.wf : Memory → Bool
  | [] => true
  | (k, _) :: m => k < 2 ^ 64 && Memory.above k m && Memory.wf m

/-- The little-endian value of the `n` bytes from `a`, addresses modulo 2^64, if all hold a value (R62, R70). -/
def Memory.load (m : Memory) (a : Word) : Nat → Option Nat
  | 0 => some 0
  | n + 1 =>
    match m.read a.toNat, Memory.load m (a + 1) n with
    | some b, some v => some (b.toNat + 256 * v)
    | _, _ => none

/-- The low `n` bytes of `v` stored little-endian from `a`, addresses modulo 2^64 (R62, R71). -/
def Memory.store (m : Memory) (a : Word) : Nat → Nat → Memory
  | 0, _ => m
  | n + 1, v => Memory.store (m.write a.toNat (BitVec.ofNat 8 v)) (a + 1) n (v / 256)

/-- The bytes of a list written one after another from `a`: how a program's bytes are placed. -/
def Memory.place (m : Memory) (a : Word) : List Byte → Memory
  | [] => m
  | b :: bs => Memory.place (m.write a.toNat b) (a + 1) bs

/-! ## Raising an exception, and trap entry and return -/

/-- `EXC_VECTOR(e)` and `EXC_CODE(e)`, if the platform gives them (R353, R354, R363). -/
def Platform.trap (p : Platform) (e : ExcKind) : Option TrapAssignment := p.traps.find? fun t => t.kind == e

/-- The address of the handler of a vector: `VBA + 16 * vec` modulo 2^64 (R353). -/
def State.vectorAddress (s : State) (vec : BitVec 9) : Word := s.vba + 16 * vec.setWidth 64

/-- Taking a trap, `TrapEnter(ret, vec, code)`: EPC, `pkm` and `pim` save the return address, the mode and the mask; kernel
mode, masked, no CLI pending; EXC takes the code if there is one; the pc goes to the vector's address (R352). -/
def State.trapEnter (s : State) (ret : Word) (vec : BitVec 9) (code : Option Word) : State :=
  { s with epc := ret, pkm := s.km, pim := s.im, km := true, im := true, cliPending := 0,
           exc := code.getD s.exc, pc := s.vectorAddress vec }

/-- Returning from a trap: pc, mode and mask come back, a pending CLI is cancelled (R356). -/
def State.trapReturn (s : State) : State :=
  { s with pc := s.epc, km := s.pkm, im := s.pim, cliPending := 0 }

/-- `raise E(info)`: the raising instruction has written nothing; the trap is taken with the instruction's own address as
the return address, or, on a platform that gives the kind no vector, the run ends (R351, R352, R363). -/
def State.raise (s : State) (e : ExcKind) (addr : Option Word) : Result :=
  match s.platform.trap e with
  | some t => .next (s.trapEnter s.pc t.vector (some t.code))
  | none => .fault (.exception e s.pc addr)

/-- What an instruction that needs kernel mode does in user mode, before anything else it does (R343, R350 (5)). -/
def State.guarded (s : State) (needsKernel : Bool) (k : Result) : Result :=
  if needsKernel && !s.km then s.raise .privilegeViolation none else k

/-! ## Accesses -/

/-- Goes on with the value of an access, or takes its exception, or stops on a byte that holds no value (R70, R351). -/
def Access.run {α : Type} (x : Access α) (s : State) (k : α → Result) : Result :=
  match x with
  | .value v => k v
  | .raised e addr => s.raise e addr
  | .missing addr => .fault (.unspecifiedMemory addr)

/-- The exception kind of an answer of the oracle (R340, R344). -/
def BusFault.kind : BusFault → ExcKind
  | .dbe => .dbe
  | .dbg => .dbg
  | .tlb => .tlb
  | .lmt => .lmt

/-- `mem_fault(addr, n, kind)` as the environment answers it during this step (R69). -/
def State.memFault (s : State) (addr : Word) (n : Nat) (kind : AccessKind) : Option BusFault :=
  (s.input.faults.find? fun f => f.addr == addr && f.size == n && f.kind == kind).map (·.answer)

/-- The address breaks the alignment of an access of `n` bytes: an odd half-word, a word not at a multiple of 8 (R64). -/
def misaligned (addr : Word) (n : Nat) : Bool := addr.toNat % n != 0

/-- `MemRead(addr, n)`: the alignment, then the oracle, then the bytes (R70). -/
def State.memRead (s : State) (addr : Word) (n : Nat) : Access Word :=
  if misaligned addr n then .raised .misalignedData (some addr)
  else
    match s.memFault addr n .load with
    | some f => .raised f.kind (some addr)
    | none =>
      match s.mem.load addr n with
      | some v => .value (BitVec.ofNat 64 v)
      | none => .missing addr

/-- `MemWrite(addr, n, v)`: the alignment, then the oracle, then the bytes; a store that raises writes none (R71). -/
def State.memWrite (s : State) (addr : Word) (n : Nat) (v : Word) : Access State :=
  if misaligned addr n then .raised .misalignedData (some addr)
  else
    match s.memFault addr n .store with
    | some f => .raised f.kind (some addr)
    | none => .value { s with mem := s.mem.store addr n v.toNat }

/-! ## Special registers (R32 to R44) -/

/-- The special register that a number names, if the spec or the platform gives it one (R32, R35, R36, R44; log 11). -/
def Platform.spr (p : Platform) (n : Nat) : Option Spr :=
  match n with
  | 48 => some .mid
  | 49 => some .feat
  | 50 => some .tick
  | 51 => some .lc
  | 52 => some .pregs
  | 53 => some .asid
  | 59 => some .exc
  | 60 => some .bir
  | 61 => some .breakout
  | n =>
    if p.sprEpc.map Fin.val = some n then some .epc
    else if p.sprVba.map Fin.val = some n then some .vba
    else none

/-- TICK as a read finds it: the last value read plus a free amount (R39; log 6). -/
def State.tickNow (s : State) : Word := s.tick + BitVec.ofNat 64 (Config.tickAdvance s.draws)

/-- The value of a special register and the state after reading it (TICK remembers the read); none where reading it is
illegal: BIR is write-only, and the breakout register reached through itself names nothing (R38 to R44; log 19). -/
def State.readNamed (s : State) : Spr → Option (Word × State)
  | .mid => some (s.platform.mid, s)
  | .feat => some (s.platform.feat, s)
  | .tick => some (s.tickNow, { s with tick := s.tickNow })
  | .lc => some (s.lc, s)
  | .pregs => some (packPregs s.preds, s)
  | .asid => some (s.asid, s)
  | .exc => some (s.exc, s)
  | .bir => none
  | .breakout => none
  | .epc => some (s.epc, s)
  | .vba => some (s.vba, s)

/-- A special register written; none where writing it is illegal: MID, FEAT and TICK are read-only (R37 to R44; log 19). -/
def State.writeNamed (s : State) (v : Word) : Spr → Option State
  | .mid => none
  | .feat => none
  | .tick => none
  | .lc => some { s with lc := v }
  | .pregs => some { s with preds := unpackPregs v }
  | .asid => some { s with asid := v }
  | .exc => some { s with exc := v }
  | .bir => some { s with bir := v }
  | .breakout => none
  | .epc => some { s with epc := v }
  | .vba => some { s with vba := v }

/-- The special register that an access to number `n` reaches: 61 reaches the one whose number BIR holds (R43). -/
def State.sprTarget (s : State) (n : Nat) : Option Spr :=
  match s.platform.spr n with
  | some .breakout => s.platform.spr s.bir.toNat
  | r => r

/-- `spr[n]` read, with the state after the read; none is an illegal access (R44, R322). -/
def State.readSpr (s : State) (n : Nat) : Option (Word × State) := (s.sprTarget n).bind s.readNamed

/-- `spr[n] <- v`; none is an illegal access (R44, R323). -/
def State.writeSpr (s : State) (n : Nat) (v : Word) : Option State := (s.sprTarget n).bind (s.writeNamed v)

/-! ## How an instruction ends -/

/-- Writes the target register and goes on after the instruction. -/
def State.finishReg (s : State) (rt : Reg) (v : Word) (len : Nat) : Result := .next ((s.setReg rt v).advance len)

/-- Writes the target compare register and goes on after the instruction. -/
def State.finishPred (s : State) (pt : PReg) (v : CmpReg) (len : Nat) : Result := .next ((s.setPred pt v).advance len)

/-- Only advances the pc. -/
def State.finishNop (s : State) (len : Nat) : Result := .next (s.advance len)

/-- Goes to `npc + disp` where `taken` holds, else on after the instruction (R210, R211). -/
def State.finishBranch (s : State) (taken : Bool) (disp : Word) (len : Nat) : Result :=
  if taken then .next (s.jump (s.npc len + disp)) else s.finishNop len

/-- Links and jumps: the target is computed before the link register is written (R10, R216, R218). -/
def State.finishLink (s : State) (rt : Reg) (target : Word) (len : Nat) : Result :=
  .next ((s.setReg rt (s.npc len)).jump target)

/-- A load of `n` bytes into `rt`, extended by `ext` (R270). -/
def State.finishLoad (s : State) (rt : Reg) (ea : Word) (n : Nat) (ext : Word → Word) (len : Nat) : Result :=
  (s.memRead ea n).run s fun v => s.finishReg rt (ext v) len

/-- LW: with target r0 it makes no access and raises nothing (R278). -/
def State.finishLoadWord (s : State) (rt : Reg) (ea : Word) (len : Nat) : Result :=
  if rt = 0 then s.finishNop len else s.finishLoad rt ea 8 zextLoaded len

/-- SW: the whole register stored (R284). -/
def State.finishStoreWord (s : State) (rs : Reg) (ea : Word) (len : Nat) : Result :=
  (s.memWrite ea 8 (s.reg rs)).run s fun t => t.finishNop len

end Sys2Proof.Machine
end

