-- ==== Sys2Proof/Machine/Cycle.lean ====
section
/-! DEFINITION. What a step does around an instruction: the interrupt, the fetch, the decoding, the count of a pending CLI and
the passing of the inputs (R27, R46, R77, R312, R348, R350). -/

namespace Sys2Proof.Machine

/-- The vector of a hardware interrupt that is taken now: one is requested and not masked (R348, R358). -/
def State.interrupt (s : State) : Option (BitVec 9) := if s.im then none else s.input.irq

/-- The hardware interrupt of a vector: the instruction at the pc has not executed and its address is saved (R348). -/
def State.takeInterrupt (s : State) (vec : BitVec 9) : State := s.trapEnter s.pc vec none

/-- `n` parcels from `a`, in ascending order, as one number; the oracle is asked for each and no later parcel is read after a
fault (R63, R77). -/
def State.fetchParcels (s : State) (a : Word) : Nat → Access Nat
  | 0 => .value 0
  | n + 1 =>
    if (s.memFault a 2 .fetch).isSome then .raised .fetchFault (some a)
    else
      match s.mem.load a 2 with
      | none => .missing a
      | some p =>
        match State.fetchParcels s (a + 2) n with
        | .value v => .value (p + 65536 * v)
        | .raised e addr => .raised e addr
        | .missing addr => .missing addr

/-- The instruction word at the pc: the pc must be even, the first parcel gives the length, the others follow (R77). -/
def State.fetch (s : State) : Access Nat :=
  if s.pc.toNat % 2 != 0 then .raised .misalignedFetch none
  else
    match s.fetchParcels s.pc 1 with
    | .value p => s.fetchParcels s.pc (lengthOf (p % 256) / 2)
    | .raised e addr => .raised e addr
    | .missing addr => .missing addr

/-- An instruction has completed while a CLI is pending: one less to wait for, and at zero the mask clears (R46 (a), R312). -/
def State.countdown (s : State) : State :=
  if s.cliPending = 0 then s
  else { s with cliPending := s.cliPending - 1, im := s.im && s.cliPending != 1 }

/-- This is a CLI that draws its delay now: the count begins with the next instruction (R312; log 15). -/
def startsDelay (i : Instr) (s : State) : Bool :=
  match i with
  | .cli => s.km && s.im
  | _ => false

/-- The step is over: its inputs are used up, and the next step draws anew (logs 7, 13). -/
def State.endStep (s : State) : State := { s with inputs := s.inputs.tail, draws := s.draws + 1 }

/-- The end of a step that leads to a state; a stop is a stop. -/
def endOf (f : State → State) : Result → Result
  | .next t => .next (f t).endStep
  | .fault r => .fault r
  | .refused r => .refused r

/-- Instruction `i` run by `ex` in state `s`, with the count of a pending CLI and the end of the step. -/
def runInstr (ex : Instr → State → Result) (i : Instr) (s : State) : Result :=
  endOf (fun t => if startsDelay i s then t else t.countdown) (ex i s)

/-- One step with `ex` as the meaning of instructions, in the order of R350: the interrupt, the fetch, the decoding (a
reserved encoding raises, R122), the instruction. -/
def cycle (ex : Instr → State → Result) (s : State) : Result :=
  match s.interrupt with
  | some vec => .next (s.takeInterrupt vec).endStep
  | none =>
    match s.fetch with
    | .raised e addr => endOf id (s.raise e addr)
    | .missing addr => .fault (.unspecifiedMemory addr)
    | .value w =>
      match decodeWord s.platform.encodings w with
      | .ok i => runInstr ex i s
      | .error _ => endOf id (s.raise .illegalInstruction none)

/-- The instruction of an opcode-table word placed where the next step fetches: its bytes from the pc up, zeros after them up
to the longest instruction (R63, R77; log 9). -/
def State.withInstruction (s : State) (nbits w : Nat) : State :=
  { s with mem := s.mem.place s.pc (bytesOfWord 8 (w % 2 ^ nbits)) }

end Sys2Proof.Machine
end

