-- ==== Sys2Proof/Machine/Arithmetic.lean ====
section
/-! DEFINITION. Arithmetic instructions (R140 to R166). Results are modulo 2^64; no compare register is touched. -/

namespace Sys2Proof.Machine

/-! ## Scaled adds: the operand `Ra` is scaled (R141 to R148) -/

/-- 2ADD (R141). -/
def execTwoAdd (rt ra rb : Reg) (s : State) : Result := s.finishReg rt ((s.reg ra <<< 1) + s.reg rb) 4

/-- 2ADDI (R142). -/
def execTwoAddi (rt ra : Reg) (imm : BitVec 14) (s : State) : Result := s.finishReg rt ((s.reg ra <<< 1) + sext imm) 4

/-- 4ADD (R143). -/
def execFourAdd (rt ra rb : Reg) (s : State) : Result := s.finishReg rt ((s.reg ra <<< 2) + s.reg rb) 4

/-- 4ADDI (R144). -/
def execFourAddi (rt ra : Reg) (imm : BitVec 14) (s : State) : Result := s.finishReg rt ((s.reg ra <<< 2) + sext imm) 4

/-- 8ADD (R145). -/
def execEightAdd (rt ra rb : Reg) (s : State) : Result := s.finishReg rt ((s.reg ra <<< 3) + s.reg rb) 4

/-- 8ADDI (R146). -/
def execEightAddi (rt ra : Reg) (imm : BitVec 14) (s : State) : Result := s.finishReg rt ((s.reg ra <<< 3) + sext imm) 4

/-- 16ADD (R147). -/
def execSixteenAdd (rt ra rb : Reg) (s : State) : Result := s.finishReg rt ((s.reg ra <<< 4) + s.reg rb) 4

/-- 16ADDI (R148). -/
def execSixteenAddi (rt ra : Reg) (imm : BitVec 14) (s : State) : Result := s.finishReg rt ((s.reg ra <<< 4) + sext imm) 4

/-! ## Add, subtract, negate, load constant -/

/-- ABS: the most negative value is its own result (R149). -/
def execAbs (rt ra : Reg) (s : State) : Result :=
  s.finishReg rt (if (s.reg ra).msb then 0 - s.reg ra else s.reg ra) 4

/-- ADD, 32-bit (R150). -/
def execAdd (rt ra rb : Reg) (s : State) : Result := s.finishReg rt (s.reg ra + s.reg rb) 4

/-- ADD, 16-bit: the target is the first source (R151). -/
def execAdd16 (rt : Reg) (ra3 : Reg3) (s : State) : Result := s.finishReg rt (s.reg rt + s.reg (reg3 ra3)) 2

/-- ADDI, 32-bit; LEA is another name of it (R152, R161). -/
def execAddi (rt ra : Reg) (imm : BitVec 14) (s : State) : Result := s.finishReg rt (s.reg ra + sext imm) 4

/-- ADDI, 48-bit (R152). -/
def execAddi48 (rt ra : Reg) (imm : BitVec 30) (s : State) : Result := s.finishReg rt (s.reg ra + sext imm) 6

/-- ADDI, 16-bit: the target is the source; the zero parcel is the canonical no-operation (R123, R153). -/
def execAddi16 (rt : Reg) (imm : BitVec 5) (s : State) : Result := s.finishReg rt (s.reg rt + sext imm) 2

/-- ADDI SP: the immediate is not scaled (R154). -/
def execAddiSp (imm : BitVec 10) (s : State) : Result :=
  s.finishReg Config.spReg (s.reg Config.spReg + sext imm) 2

/-- ADDI BP: the immediate is not scaled (R155). -/
def execAddiBp (imm : BitVec 10) (s : State) : Result :=
  s.finishReg Config.bpReg (s.reg Config.bpReg + sext imm) 2

/-- ADDIS: the immediate at bits 63:24 (R156). -/
def execAddis (rt ra : Reg) (imm : BitVec 40) (s : State) : Result := s.finishReg rt (s.reg ra + shiftedZeros imm) 8

/-- LDI (R160). -/
def execLdi (rt : Reg) (imm : BitVec 5) (s : State) : Result := s.finishReg rt (sext imm) 2

/-- NEG (R163). -/
def execNeg (rt ra : Reg) (s : State) : Result := s.finishReg rt (0 - s.reg ra) 4

/-- SUB (R164). -/
def execSub (rt ra rb : Reg) (s : State) : Result := s.finishReg rt (s.reg ra - s.reg rb) 4

/-! ## The instructions that can raise -/

/-- ADDO: signed overflow raises and writes nothing, with target r0 too (R140, R157, R166). -/
def execAddo (rt ra rb : Reg) (s : State) : Result :=
  if addOverflows (s.reg ra) (s.reg rb) then s.raise .integerOverflow none
  else s.finishReg rt (s.reg ra + s.reg rb) 4

/-- SUBO: signed overflow raises and writes nothing, with target r0 too (R140, R165, R166). -/
def execSubo (rt ra rb : Reg) (s : State) : Result :=
  if subOverflows (s.reg ra) (s.reg rb) then s.raise .integerOverflow none
  else s.finishReg rt (s.reg ra - s.reg rb) 4

/-- DIV: a zero divisor and the one overflowing quotient raise; else the quotient rounded toward zero (R158). -/
def execDiv (rt ra rb : Reg) (s : State) : Result :=
  if s.reg rb = 0 then s.raise .divideByZero none
  else if s.reg ra = BitVec.intMin 64 ∧ s.reg rb = BitVec.allOnes 64 then s.raise .integerOverflow none
  else s.finishReg rt ((s.reg ra).sdiv (s.reg rb)) 4

/-- DIVU: never raises; a zero divisor writes a draw (R159; log 16). -/
def execDivu (rt ra rb : Reg) (s : State) : Result :=
  s.finishReg rt
    (if s.reg rb = 0 then Config.divuByZero s.draws (s.reg ra) else s.reg ra / s.reg rb) 4

end Sys2Proof.Machine
end

