-- ==== Sys2Proof/Machine/Bitfield.lean ====
section
/-! DEFINITION. Bit-field and shift instructions (R230 to R241). Where `mb > me` a bit-field instruction writes a draw (R230;
log 17). -/

namespace Sys2Proof.Machine

/-- Writes `v` where the field exists (`mb ≤ me`), else the value this step draws (R230; log 17). -/
def State.finishField (s : State) (op : BitfieldOp) (rt : Reg) (source : Word) (mb me : BitNo) (v : Word) : Result :=
  s.finishReg rt (if mb ≤ me then v else Config.bitfieldDraw s.draws op source (s.reg rt) mb me) 6

/-- BFCHG: the field inverted (R231). -/
def execBfchg (rt ra : Reg) (mb me : BitNo) (s : State) : Result :=
  s.finishField .bfchg rt (s.reg ra) mb me (s.reg ra ^^^ bitMask mb me)

/-- BFCLR: the field cleared (R232). -/
def execBfclr (rt ra : Reg) (mb me : BitNo) (s : State) : Result :=
  s.finishField .bfclr rt (s.reg ra) mb me (s.reg ra &&& ~~~ bitMask mb me)

/-- BFEXT: the field extracted, sign-extended (R233). -/
def execBfext (rt ra : Reg) (mb me : BitNo) (s : State) : Result :=
  s.finishField .bfext rt (s.reg ra) mb me ((extractField (s.reg ra) mb me).signExtend 64)

/-- BFEXTU: the field extracted, zero-extended (R234). -/
def execBfextu (rt ra : Reg) (mb me : BitNo) (s : State) : Result :=
  s.finishField .bfextu rt (s.reg ra) mb me ((extractField (s.reg ra) mb me).setWidth 64)

/-- BFINS: the low bits of `Ra` into the field of the target (R235). -/
def execBfins (rt ra : Reg) (mb me : BitNo) (s : State) : Result :=
  s.finishField .bfins rt (s.reg ra) mb me (insertField (s.reg rt) (s.reg ra) mb me)

/-- BFINSI: the unsigned five-bit immediate into the field of the target (R236). -/
def execBfinsi (rt : Reg) (imm : BitVec 5) (mb me : BitNo) (s : State) : Result :=
  s.finishField .bfinsi rt (imm.setWidth 64) mb me (insertField (s.reg rt) (imm.setWidth 64) mb me)

/-- BFSET: the field set (R237). -/
def execBfset (rt ra : Reg) (mb me : BitNo) (s : State) : Result :=
  s.finishField .bfset rt (s.reg ra) mb me (s.reg ra ||| bitMask mb me)

/-- SHL (R238, R239). -/
def execShl (rt ra rb : Reg) (s : State) : Result := s.finishReg rt (s.reg ra <<< shiftAmount (s.reg rb)) 4

/-- SHR: arithmetic (R238, R240). -/
def execShr (rt ra rb : Reg) (s : State) : Result := s.finishReg rt ((s.reg ra).sshiftRight (shiftAmount (s.reg rb))) 4

/-- SHRU: logical (R238, R241). -/
def execShru (rt ra rb : Reg) (s : State) : Result := s.finishReg rt (s.reg ra >>> shiftAmount (s.reg rb)) 4

end Sys2Proof.Machine
end

