-- ==== Sys2Proof/Machine/Branch.lean ====
section
/-! DEFINITION. Branches, jumps and subroutine return (R210 to R220). Displacements are bytes from the next instruction; an odd
target is taken and the next fetch raises. -/

namespace Sys2Proof.Machine

/-! ## Bcc, one condition each (R211, R212) -/

/-- BF: never (R212, condition 0). -/
def execBf (_ : PReg) (disp : BitVec 14) (s : State) : Result := s.finishBranch false (branchDisp disp) 4

/-- BT: always (R212, condition 1). -/
def execBt (_ : PReg) (disp : BitVec 14) (s : State) : Result := s.finishBranch true (branchDisp disp) 4

/-- BEQ (R212, condition 2). -/
def execBeq (pn : PReg) (disp : BitVec 14) (s : State) : Result := s.finishBranch (s.pred pn).eq (branchDisp disp) 4

/-- BNE (R212, condition 3). -/
def execBne (pn : PReg) (disp : BitVec 14) (s : State) : Result := s.finishBranch (!(s.pred pn).eq) (branchDisp disp) 4

/-- BLE (R212, condition 4). -/
def execBle (pn : PReg) (disp : BitVec 14) (s : State) : Result := s.finishBranch (s.pred pn).le (branchDisp disp) 4

/-- BGT (R212, condition 5). -/
def execBgt (pn : PReg) (disp : BitVec 14) (s : State) : Result := s.finishBranch (!(s.pred pn).le) (branchDisp disp) 4

/-- BGE (R212, condition 6). -/
def execBge (pn : PReg) (disp : BitVec 14) (s : State) : Result := s.finishBranch (!(s.pred pn).lt) (branchDisp disp) 4

/-- BLT (R212, condition 7). -/
def execBlt (pn : PReg) (disp : BitVec 14) (s : State) : Result := s.finishBranch (s.pred pn).lt (branchDisp disp) 4

/-- BLEU (R212, condition 8). -/
def execBleu (pn : PReg) (disp : BitVec 14) (s : State) : Result := s.finishBranch (s.pred pn).leu (branchDisp disp) 4

/-- BGTU (R212, condition 9). -/
def execBgtu (pn : PReg) (disp : BitVec 14) (s : State) : Result := s.finishBranch (!(s.pred pn).leu) (branchDisp disp) 4

/-- BGEU, also named BOR (R212, condition 10). -/
def execBgeu (pn : PReg) (disp : BitVec 14) (s : State) : Result := s.finishBranch (!(s.pred pn).ltu) (branchDisp disp) 4

/-- BLTU, also named BUN (R212, condition 11). -/
def execBltu (pn : PReg) (disp : BitVec 14) (s : State) : Result := s.finishBranch (s.pred pn).ltu (branchDisp disp) 4

/-- BSIG: the external signal as the environment presents it during this step (R213, condition 13; log 13). -/
def execBsig (_ : PReg) (disp : BitVec 14) (s : State) : Result := s.finishBranch s.input.signal (branchDisp disp) 4

/-! ## Short branches -/

/-- BEQS (R214). -/
def execBeqs (pn : PReg) (disp : BitVec 7) (s : State) : Result := s.finishBranch (s.pred pn).eq (sext disp) 2

/-- BNES (R215). -/
def execBnes (pn : PReg) (disp : BitVec 7) (s : State) : Result := s.finishBranch (!(s.pred pn).eq) (sext disp) 2

/-! ## Jumps -/

/-- JAL, 32-bit (R216). -/
def execJal (rt : Reg) (offset : BitVec 19) (s : State) : Result := s.finishLink rt (s.npc 4 + sext offset) 4

/-- JAL, 48-bit (R216). -/
def execJal48 (rt : Reg) (offset : BitVec 35) (s : State) : Result := s.finishLink rt (s.npc 6 + sext offset) 6

/-- JAL, 16-bit: links to r1 (R217). -/
def execJal16 (disp : BitVec 10) (s : State) : Result := s.finishLink Config.raReg (s.npc 2 + sext disp) 2

/-- JALR: to the old value of `Ra`, as it is (R218). -/
def execJalr (rt ra : Reg) (s : State) : Result := s.finishLink rt (s.reg ra) 4

/-- RTS: to the value of r1 (R219). -/
def execRts (s : State) : Result := .next (s.jump (s.reg Config.raReg))

end Sys2Proof.Machine
end

