-- ==== Sys2Proof/Machine/Compare.lean ====
section
/-! DEFINITION. Compare, test and bounds-check instructions (R250 to R258): they write a compare register and nothing else. -/

namespace Sys2Proof.Machine

/-- BITI (R251). -/
def execBiti (pt : PReg) (ra : Reg) (imm : BitVec 14) (s : State) : Result :=
  s.finishPred pt (testFlags (s.reg ra &&& sext imm)) 4

/-- CHK: only `eq` is written (R252). -/
def execChk (pt : PReg) (ra rb rc : Reg) (s : State) : Result :=
  s.finishPred pt { s.pred pt with eq := insideSigned (s.reg ra) (s.reg rb) (s.reg rc) } 4

/-- CHKU: only `eq` is written (R253). -/
def execChku (pt : PReg) (ra rb rc : Reg) (s : State) : Result :=
  s.finishPred pt { s.pred pt with eq := insideUnsigned (s.reg ra) (s.reg rb) (s.reg rc) } 4

/-- CMP (R254). -/
def execCmp (pt : PReg) (ra rb : Reg) (s : State) : Result := s.finishPred pt (compareFlags (s.reg ra) (s.reg rb)) 4

/-- CMPI, 32-bit (R255). -/
def execCmpi (pt : PReg) (ra : Reg) (imm : BitVec 14) (s : State) : Result :=
  s.finishPred pt (compareFlags (s.reg ra) (sext imm)) 4

/-- CMPI, 48-bit (R255). -/
def execCmpi48 (pt : PReg) (ra : Reg) (imm : BitVec 30) (s : State) : Result :=
  s.finishPred pt (compareFlags (s.reg ra) (sext imm)) 6

/-- CMPIL: acts only where the target's `eq` is set (R256). -/
def execCmpil (pt : PReg) (ra : Reg) (imm : BitVec 24) (s : State) : Result :=
  if (s.pred pt).eq then s.finishPred pt (lowerFlags (s.reg ra) imm) 6 else s.finishNop 6

/-- CMPIU: the upper 40 bits (R257). -/
def execCmpiu (pt : PReg) (ra : Reg) (imm : BitVec 40) (s : State) : Result :=
  s.finishPred pt (compareFlags (upperPart (s.reg ra)) (shiftedZeros imm)) 8

end Sys2Proof.Machine
end

