-- ==== Sys2Proof/Machine/LoadStore.lean ====
section
/-! DEFINITION. Loads, stores and compare-and-swap (R270 to R300). -/

namespace Sys2Proof.Machine

/-! ## Displacement forms (R270 (a), R271, R272, R275 to R278, R284) -/

/-- LB, 32-bit (R271). -/
def execLb (rt ra : Reg) (disp : BitVec 14) (s : State) : Result :=
  s.finishLoad rt (s.reg ra + sext disp) 1 sextByte 4

/-- LB, 48-bit (R271). -/
def execLb48 (rt ra : Reg) (disp : BitVec 27) (s : State) : Result :=
  s.finishLoad rt (s.reg ra + sext disp) 1 sextByte 6

/-- LBU, 32-bit (R272). -/
def execLbu (rt ra : Reg) (disp : BitVec 14) (s : State) : Result :=
  s.finishLoad rt (s.reg ra + sext disp) 1 zextLoaded 4

/-- LBU, 48-bit (R272). -/
def execLbu48 (rt ra : Reg) (disp : BitVec 27) (s : State) : Result :=
  s.finishLoad rt (s.reg ra + sext disp) 1 zextLoaded 6

/-- LH, 32-bit (R275). -/
def execLh (rt ra : Reg) (disp : BitVec 14) (s : State) : Result :=
  s.finishLoad rt (s.reg ra + sext disp) 2 sextHalf 4

/-- LH, 48-bit (R275). -/
def execLh48 (rt ra : Reg) (disp : BitVec 27) (s : State) : Result :=
  s.finishLoad rt (s.reg ra + sext disp) 2 sextHalf 6

/-- LHU, 32-bit (R276). -/
def execLhu (rt ra : Reg) (disp : BitVec 14) (s : State) : Result :=
  s.finishLoad rt (s.reg ra + sext disp) 2 zextLoaded 4

/-- LHU, 48-bit (R276). -/
def execLhu48 (rt ra : Reg) (disp : BitVec 27) (s : State) : Result :=
  s.finishLoad rt (s.reg ra + sext disp) 2 zextLoaded 6

/-- LW, 32-bit (R277, R278). -/
def execLw (rt ra : Reg) (disp : BitVec 14) (s : State) : Result := s.finishLoadWord rt (s.reg ra + sext disp) 4

/-- LW, 48-bit (R277, R278). -/
def execLw48 (rt ra : Reg) (disp : BitVec 27) (s : State) : Result := s.finishLoadWord rt (s.reg ra + sext disp) 6

/-- SW, 32-bit (R284). -/
def execSw (rs ra : Reg) (disp : BitVec 14) (s : State) : Result := s.finishStoreWord rs (s.reg ra + sext disp) 4

/-- SW, 48-bit (R284). -/
def execSw48 (rs ra : Reg) (disp : BitVec 27) (s : State) : Result := s.finishStoreWord rs (s.reg ra + sext disp) 6

/-! ## Indexed loads: the index is not scaled (R273, R274, R279, R280) -/

/-- LBUX (R273). -/
def execLbux (rt ra rb : Reg) (s : State) : Result := s.finishLoad rt (s.reg ra + s.reg rb) 1 zextLoaded 4

/-- LBX (R274). -/
def execLbx (rt ra rb : Reg) (s : State) : Result := s.finishLoad rt (s.reg ra + s.reg rb) 1 sextByte 4

/-- LHUX (R279). -/
def execLhux (rt ra rb : Reg) (s : State) : Result := s.finishLoad rt (s.reg ra + s.reg rb) 2 zextLoaded 4

/-- LHX (R280). -/
def execLhx (rt ra rb : Reg) (s : State) : Result := s.finishLoad rt (s.reg ra + s.reg rb) 2 sextHalf 4

/-! ## 16-bit loads and stores: the displacement times four (R104, R281 to R283, R285 to R287) -/

/-- LW, 16-bit with base register (R281). -/
def execLw16 (rt3 ra3 : Reg3) (disp : BitVec 4) (s : State) : Result :=
  s.finishLoadWord (reg3 rt3) (s.reg (reg3 ra3) + scaledDisp disp) 2

/-- LW d[BP] (R282). -/
def execLwBp (rt : Reg) (disp : BitVec 5) (s : State) : Result :=
  s.finishLoadWord rt (s.reg Config.bpReg + scaledDisp disp) 2

/-- LW d[SP] (R283). -/
def execLwSp (rt : Reg) (disp : BitVec 5) (s : State) : Result :=
  s.finishLoadWord rt (s.reg Config.spReg + scaledDisp disp) 2

/-- SW, 16-bit with base register (R285). -/
def execSw16 (rs3 ra3 : Reg3) (disp : BitVec 4) (s : State) : Result :=
  s.finishStoreWord (reg3 rs3) (s.reg (reg3 ra3) + scaledDisp disp) 2

/-- SW d[BP] (R286). -/
def execSwBp (rs : Reg) (disp : BitVec 5) (s : State) : Result :=
  s.finishStoreWord rs (s.reg Config.bpReg + scaledDisp disp) 2

/-- SW d[SP] (R287). -/
def execSwSp (rs : Reg) (disp : BitVec 5) (s : State) : Result :=
  s.finishStoreWord rs (s.reg Config.spReg + scaledDisp disp) 2

/-! ## Compare and swap -/

/-- CAS: the old word to `Rt`; `Rc` stored where the old word is `Rb`; a fault of either access leaves memory and `Rt`
alone; target r14 is illegal (R300; log 20). -/
def execCas (rt ra rb rc : Reg) (disp : BitVec 12) (s : State) : Result :=
  if rt = Config.spReg then s.raise .illegalInstruction none
  else
    (s.memRead (s.reg ra + sext disp) 8).run s fun old =>
      if old = s.reg rb then
        (s.memWrite (s.reg ra + sext disp) 8 (s.reg rc)).run s fun t => t.finishReg rt old 6
      else s.finishReg rt old 6

end Sys2Proof.Machine
end

