-- ==== Sys2Proof/Machine/Logical.lean ====
section
/-! DEFINITION. Logical instructions (R180 to R198): bitwise, but for NOT; nothing raises. -/

namespace Sys2Proof.Machine

/-- AND, 32-bit (R181). -/
def execAnd (rt ra rb : Reg) (s : State) : Result := s.finishReg rt (s.reg ra &&& s.reg rb) 4

/-- AND, 16-bit: the target is the first source (R182). -/
def execAnd16 (rt : Reg) (ra3 : Reg3) (s : State) : Result := s.finishReg rt (s.reg rt &&& s.reg (reg3 ra3)) 2

/-- ANDC: the second source is complemented (R183). -/
def execAndc (rt ra rb : Reg) (s : State) : Result := s.finishReg rt (s.reg ra &&& ~~~ s.reg rb) 4

/-- ANDI, 32-bit (R184). -/
def execAndi (rt ra : Reg) (imm : BitVec 14) (s : State) : Result := s.finishReg rt (s.reg ra &&& sext imm) 4

/-- ANDI, 48-bit (R184). -/
def execAndi48 (rt ra : Reg) (imm : BitVec 30) (s : State) : Result := s.finishReg rt (s.reg ra &&& sext imm) 6

/-- ANDIS: the low 24 bits of the operand are ones (R185). -/
def execAndis (rt ra : Reg) (imm : BitVec 40) (s : State) : Result := s.finishReg rt (s.reg ra &&& shiftedOnes imm) 8

/-- COM (R186). -/
def execCom (rt ra : Reg) (s : State) : Result := s.finishReg rt (~~~ s.reg ra) 4

/-- NAND (R187). -/
def execNand (rt ra rb : Reg) (s : State) : Result := s.finishReg rt (~~~ (s.reg ra &&& s.reg rb)) 4

/-- NOR: the title and description hold against the page's operation line (R188). -/
def execNor (rt ra rb : Reg) (s : State) : Result := s.finishReg rt (~~~ (s.reg ra ||| s.reg rb)) 4

/-- NOT: one where the source is zero, else zero (R189). -/
def execNot (rt ra : Reg) (s : State) : Result := s.finishReg rt (if s.reg ra = 0 then 1 else 0) 4

/-- OR, 32-bit (R190). -/
def execOr (rt ra rb : Reg) (s : State) : Result := s.finishReg rt (s.reg ra ||| s.reg rb) 4

/-- OR, 16-bit: the target is the first source (R191). -/
def execOr16 (rt : Reg) (ra3 : Reg3) (s : State) : Result := s.finishReg rt (s.reg rt ||| s.reg (reg3 ra3)) 2

/-- ORI, 32-bit (R192). -/
def execOri (rt ra : Reg) (imm : BitVec 14) (s : State) : Result := s.finishReg rt (s.reg ra ||| sext imm) 4

/-- ORI, 48-bit (R192). -/
def execOri48 (rt ra : Reg) (imm : BitVec 30) (s : State) : Result := s.finishReg rt (s.reg ra ||| sext imm) 6

/-- ORIS (R193). -/
def execOris (rt ra : Reg) (imm : BitVec 40) (s : State) : Result := s.finishReg rt (s.reg ra ||| shiftedZeros imm) 8

/-- XNOR (R194). -/
def execXnor (rt ra rb : Reg) (s : State) : Result := s.finishReg rt (~~~ (s.reg ra ^^^ s.reg rb)) 4

/-- XOR (R195). -/
def execXor (rt ra rb : Reg) (s : State) : Result := s.finishReg rt (s.reg ra ^^^ s.reg rb) 4

/-- XORI, 32-bit (R196). -/
def execXori (rt ra : Reg) (imm : BitVec 14) (s : State) : Result := s.finishReg rt (s.reg ra ^^^ sext imm) 4

/-- XORI, 48-bit (R196). -/
def execXori48 (rt ra : Reg) (imm : BitVec 30) (s : State) : Result := s.finishReg rt (s.reg ra ^^^ sext imm) 6

/-- XORIS (R197). -/
def execXoris (rt ra : Reg) (imm : BitVec 40) (s : State) : Result := s.finishReg rt (s.reg ra ^^^ shiftedZeros imm) 8

end Sys2Proof.Machine
end

