-- ==== Sys2Proof/Machine/MapOnly.lean ====
section
/-! DEFINITION. The map-only names (R128, R324, R325): a cell of the opcode map prints the name and the spec gives it no
operand, no width and no effect, so each stops with `Unsupported(mnemonic)`, a refusal of the model and no event of the
machine. -/

namespace Sys2Proof.Machine

/-- MRK1, cell 33h E4h: `Unsupported(MRK1)` (R324, log 22). -/
def execMrk1 (_ : State) : Result := .refused (.unsupported "MRK1")

/-- MRK2, cell 33h E5h: `Unsupported(MRK2)` (R324, log 22). -/
def execMrk2 (_ : State) : Result := .refused (.unsupported "MRK2")

/-- MRK3, cell 33h E6h: `Unsupported(MRK3)` (R324, log 22). -/
def execMrk3 (_ : State) : Result := .refused (.unsupported "MRK3")

/-- MRK4, cell 33h E7h: `Unsupported(MRK4)` (R324, log 22). -/
def execMrk4 (_ : State) : Result := .refused (.unsupported "MRK4")

/-- LC, cell 62h: `Unsupported(LC)` (R325, log 22). -/
def execLc (_ : State) : Result := .refused (.unsupported "LC")

/-- LCU, cell 63h: `Unsupported(LCU)` (R325, log 22). -/
def execLcu (_ : State) : Result := .refused (.unsupported "LCU")

/-- LVWAR, cell 67h: `Unsupported(LVWAR)` (R325, log 22). -/
def execLvwar (_ : State) : Result := .refused (.unsupported "LVWAR")

/-- SB, cell 70h: `Unsupported(SB)` (R325, log 22). -/
def execSb (_ : State) : Result := .refused (.unsupported "SB")

/-- SC, cell 71h: `Unsupported(SC)` (R325, log 22). -/
def execSc (_ : State) : Result := .refused (.unsupported "SC")

/-- SH, cell 72h: `Unsupported(SH)` (R325, log 22). -/
def execSh (_ : State) : Result := .refused (.unsupported "SH")

/-- SWCR, cell 77h: `Unsupported(SWCR)` (R325, log 22). -/
def execSwcr (_ : State) : Result := .refused (.unsupported "SWCR")

/-- BITI, cell 8Bh: `Unsupported(BITI)` (R325, log 22). -/
def execBiti48 (_ : State) : Result := .refused (.unsupported "BITI")

/-- JSRI, cell 8Dh: `Unsupported(JSRI)` (R325, log 22). -/
def execJsri (_ : State) : Result := .refused (.unsupported "JSRI")

/-- LWS, cell 8Eh: `Unsupported(LWS)` (R325, log 22). -/
def execLws (_ : State) : Result := .refused (.unsupported "LWS")

/-- LCL, cell 8Fh: `Unsupported(LCL)` (R325, log 22). -/
def execLcl (_ : State) : Result := .refused (.unsupported "LCL")

/-- LC, cell A2h: `Unsupported(LC)` (R325, log 22). -/
def execLc48 (_ : State) : Result := .refused (.unsupported "LC")

/-- LCU, cell A3h: `Unsupported(LCU)` (R325, log 22). -/
def execLcu48 (_ : State) : Result := .refused (.unsupported "LCU")

/-- LWAR, cell A7h: `Unsupported(LWAR)` (R325, log 22). -/
def execLwar (_ : State) : Result := .refused (.unsupported "LWAR")

/-- LVB, cell ACh: `Unsupported(LVB)` (R325, log 22). -/
def execLvb (_ : State) : Result := .refused (.unsupported "LVB")

/-- LVC, cell ADh: `Unsupported(LVC)` (R325, log 22). -/
def execLvc (_ : State) : Result := .refused (.unsupported "LVC")

/-- LVH, cell AEh: `Unsupported(LVH)` (R325, log 22). -/
def execLvh (_ : State) : Result := .refused (.unsupported "LVH")

/-- LVW, cell AFh: `Unsupported(LVW)` (R325, log 22). -/
def execLvw (_ : State) : Result := .refused (.unsupported "LVW")

/-- SB, cell B0h: `Unsupported(SB)` (R325, log 22). -/
def execSb48 (_ : State) : Result := .refused (.unsupported "SB")

/-- SC, cell B1h: `Unsupported(SC)` (R325, log 22). -/
def execSc48 (_ : State) : Result := .refused (.unsupported "SC")

/-- SH, cell B2h: `Unsupported(SH)` (R325, log 22). -/
def execSh48 (_ : State) : Result := .refused (.unsupported "SH")

/-- SWCR, cell B7h: `Unsupported(SWCR)` (R325, log 22). -/
def execSwcr48 (_ : State) : Result := .refused (.unsupported "SWCR")

/-- LLAX, cell B8h: `Unsupported(LLAX)` (R325, log 22). -/
def execLlax (_ : State) : Result := .refused (.unsupported "LLAX")

end Sys2Proof.Machine
end

