-- ==== Sys2Proof/Machine/System.lean ====
section
/-! DEFINITION. System instructions (R310 to R323). -/

namespace Sys2Proof.Machine

/-! ## Cache commands: no state of the spec changes (R80, R81, R310; log 18) -/

/-- CACHE 0, invalidate the entire instruction cache (R310). -/
def execCacheInvICache (_ : Reg) (s : State) : Result := s.guarded s.platform.privCache (s.finishNop 4)

/-- CACHE 1, invalidate an instruction cache line: its address is no access (R310). -/
def execCacheInvILine (_ : Reg) (s : State) : Result := s.guarded s.platform.privCache (s.finishNop 4)

/-- CACHE 32, invalidate the entire data cache (R81, R310). -/
def execCacheInvDCache (_ : Reg) (s : State) : Result := s.guarded s.platform.privCache (s.finishNop 4)

/-- CACHE 33, invalidate a data cache line: its address is no access (R81, R310). -/
def execCacheInvDLine (_ : Reg) (s : State) : Result := s.guarded s.platform.privCache (s.finishNop 4)

/-! ## Barriers and no-operations: in program order they only advance the pc (R72) -/

/-- MEMDB (R73, R315). -/
def execMemdb (s : State) : Result := s.finishNop 2

/-- MEMSB (R74, R316). -/
def execMemsb (s : State) : Result := s.finishNop 2

/-- SYNC (R75, R317). -/
def execSync (s : State) : Result := s.finishNop 2

/-- NOP, second byte E1h (R318). -/
def execNopE1 (s : State) : Result := s.finishNop 2

/-- NOP, second byte EAh (R318). -/
def execNopEA (s : State) : Result := s.finishNop 2

/-! ## The interrupt mask -/

/-- CLI: kernel only; where the mask is set, a drawn delay `d`: at once for 0, else after `d` later instructions, which
`State.countdown` counts (R312; log 15). -/
def execCli (s : State) : Result :=
  s.guarded true
    (if s.im then
      ({ s with im := Config.cliDelay s.draws != 0, cliPending := Config.cliDelay s.draws } : State).finishNop 2
    else s.finishNop 2)

/-- SEI: kernel only; the mask set at once, a pending CLI cancelled (R313). -/
def execSei (s : State) : Result :=
  s.guarded true (({ s with im := true, cliPending := 0 } : State).finishNop 2)

/-! ## Software interrupt and trap returns -/

/-- INT: the trap entry of vector `n` with the next instruction as the return address and no cause code; unprivileged,
not maskable (R314, R349). -/
def execInt (offset : BitVec 9) (s : State) : Result := .next (s.trapEnter (s.npc 2) offset none)

/-- RTI: kernel only (R319, R356). -/
def execRti (s : State) : Result := s.guarded true (.next s.trapReturn)

/-- RTE: the operation of RTI (R320, R356; log 21). -/
def execRte (s : State) : Result := s.guarded true (.next s.trapReturn)

/-- RTD: the operation of RTI (R321, R356; log 21). -/
def execRtd (s : State) : Result := s.guarded true (.next s.trapReturn)

/-! ## Special register moves -/

/-- MF: an illegal number raises, with target r0 too (R44, R322). -/
def execMf (rt : Reg) (spr : SprNo) (s : State) : Result :=
  s.guarded s.platform.privMf
    (match s.readSpr spr.val with
    | some (v, t) => t.finishReg rt v 6
    | none => s.raise .illegalInstruction none)

/-- MT: an illegal number or a read-only register raises (R44, R323). -/
def execMt (spr : SprNo) (ra : Reg) (s : State) : Result :=
  s.guarded s.platform.privMt
    (match s.writeSpr spr.val (s.reg ra) with
    | some t => t.finishNop 6
    | none => s.raise .illegalInstruction none)

end Sys2Proof.Machine
end

