-- ==== Sys2Proof/Machine/Dispatch.lean ====
section
/-! DEFINITION. exec: one arm for each instruction, each a direct call of its meaning. -/

namespace Sys2Proof.Machine

def exec (i : Instr) (s : State) : Host.Outcome State Fault Refusal :=
  match i with
  | .addi16 rt imm => Sys2Proof.Machine.execAddi16 rt imm s
  | .addiSp imm => Sys2Proof.Machine.execAddiSp imm s
  | .ldi rt imm => Sys2Proof.Machine.execLdi rt imm s
  | .add16 rt ra3 => Sys2Proof.Machine.execAdd16 rt ra3 s
  | .and16 rt ra3 => Sys2Proof.Machine.execAnd16 rt ra3 s
  | .or16 rt ra3 => Sys2Proof.Machine.execOr16 rt ra3 s
  | .lw16 rt3 ra3 disp => Sys2Proof.Machine.execLw16 rt3 ra3 disp s
  | .sw16 rs3 ra3 disp => Sys2Proof.Machine.execSw16 rs3 ra3 disp s
  | .lwBp rt disp => Sys2Proof.Machine.execLwBp rt disp s
  | .swBp rs disp => Sys2Proof.Machine.execSwBp rs disp s
  | .beqs pn disp => Sys2Proof.Machine.execBeqs pn disp s
  | .bnes pn disp => Sys2Proof.Machine.execBnes pn disp s
  | .lwSp rt disp => Sys2Proof.Machine.execLwSp rt disp s
  | .swSp rs disp => Sys2Proof.Machine.execSwSp rs disp s
  | .int offset => Sys2Proof.Machine.execInt offset s
  | .rts => Sys2Proof.Machine.execRts s
  | .rti => Sys2Proof.Machine.execRti s
  | .rtd => Sys2Proof.Machine.execRtd s
  | .rte => Sys2Proof.Machine.execRte s
  | .sync => Sys2Proof.Machine.execSync s
  | .memdb => Sys2Proof.Machine.execMemdb s
  | .memsb => Sys2Proof.Machine.execMemsb s
  | .cli => Sys2Proof.Machine.execCli s
  | .sei => Sys2Proof.Machine.execSei s
  | .nopE1 => Sys2Proof.Machine.execNopE1 s
  | .nopEA => Sys2Proof.Machine.execNopEA s
  | .mrk1 => Sys2Proof.Machine.execMrk1 s
  | .mrk2 => Sys2Proof.Machine.execMrk2 s
  | .mrk3 => Sys2Proof.Machine.execMrk3 s
  | .mrk4 => Sys2Proof.Machine.execMrk4 s
  | .addiBp imm => Sys2Proof.Machine.execAddiBp imm s
  | .jal16 disp => Sys2Proof.Machine.execJal16 disp s
  | .addi rt ra imm => Sys2Proof.Machine.execAddi rt ra imm s
  | .cmpi pt ra imm => Sys2Proof.Machine.execCmpi pt ra imm s
  | .andi rt ra imm => Sys2Proof.Machine.execAndi rt ra imm s
  | .ori rt ra imm => Sys2Proof.Machine.execOri rt ra imm s
  | .xori rt ra imm => Sys2Proof.Machine.execXori rt ra imm s
  | .biti pt ra imm => Sys2Proof.Machine.execBiti pt ra imm s
  | .twoAddi rt ra imm => Sys2Proof.Machine.execTwoAddi rt ra imm s
  | .fourAddi rt ra imm => Sys2Proof.Machine.execFourAddi rt ra imm s
  | .eightAddi rt ra imm => Sys2Proof.Machine.execEightAddi rt ra imm s
  | .sixteenAddi rt ra imm => Sys2Proof.Machine.execSixteenAddi rt ra imm s
  | .lb rt ra disp => Sys2Proof.Machine.execLb rt ra disp s
  | .lbu rt ra disp => Sys2Proof.Machine.execLbu rt ra disp s
  | .lh rt ra disp => Sys2Proof.Machine.execLh rt ra disp s
  | .lhu rt ra disp => Sys2Proof.Machine.execLhu rt ra disp s
  | .lw rt ra disp => Sys2Proof.Machine.execLw rt ra disp s
  | .sw rs ra disp => Sys2Proof.Machine.execSw rs ra disp s
  | .add rt ra rb => Sys2Proof.Machine.execAdd rt ra rb s
  | .addo rt ra rb => Sys2Proof.Machine.execAddo rt ra rb s
  | .sub rt ra rb => Sys2Proof.Machine.execSub rt ra rb s
  | .subo rt ra rb => Sys2Proof.Machine.execSubo rt ra rb s
  | .xor rt ra rb => Sys2Proof.Machine.execXor rt ra rb s
  | .cmp pt ra rb => Sys2Proof.Machine.execCmp pt ra rb s
  | .and rt ra rb => Sys2Proof.Machine.execAnd rt ra rb s
  | .or rt ra rb => Sys2Proof.Machine.execOr rt ra rb s
  | .nand rt ra rb => Sys2Proof.Machine.execNand rt ra rb s
  | .nor rt ra rb => Sys2Proof.Machine.execNor rt ra rb s
  | .chk pt ra rb rc => Sys2Proof.Machine.execChk pt ra rb rc s
  | .chku pt ra rb rc => Sys2Proof.Machine.execChku pt ra rb rc s
  | .bf pn disp => Sys2Proof.Machine.execBf pn disp s
  | .bt pn disp => Sys2Proof.Machine.execBt pn disp s
  | .beq pn disp => Sys2Proof.Machine.execBeq pn disp s
  | .bne pn disp => Sys2Proof.Machine.execBne pn disp s
  | .ble pn disp => Sys2Proof.Machine.execBle pn disp s
  | .bgt pn disp => Sys2Proof.Machine.execBgt pn disp s
  | .bge pn disp => Sys2Proof.Machine.execBge pn disp s
  | .blt pn disp => Sys2Proof.Machine.execBlt pn disp s
  | .bleu pn disp => Sys2Proof.Machine.execBleu pn disp s
  | .bgtu pn disp => Sys2Proof.Machine.execBgtu pn disp s
  | .bgeu pn disp => Sys2Proof.Machine.execBgeu pn disp s
  | .bltu pn disp => Sys2Proof.Machine.execBltu pn disp s
  | .bsig pn disp => Sys2Proof.Machine.execBsig pn disp s
  | .jal rt offset => Sys2Proof.Machine.execJal rt offset s
  | .xnor rt ra rb => Sys2Proof.Machine.execXnor rt ra rb s
  | .andc rt ra rb => Sys2Proof.Machine.execAndc rt ra rb s
  | .lbux rt ra rb => Sys2Proof.Machine.execLbux rt ra rb s
  | .lbx rt ra rb => Sys2Proof.Machine.execLbx rt ra rb s
  | .lhux rt ra rb => Sys2Proof.Machine.execLhux rt ra rb s
  | .lhx rt ra rb => Sys2Proof.Machine.execLhx rt ra rb s
  | .div rt ra rb => Sys2Proof.Machine.execDiv rt ra rb s
  | .divu rt ra rb => Sys2Proof.Machine.execDivu rt ra rb s
  | .shl rt ra rb => Sys2Proof.Machine.execShl rt ra rb s
  | .shru rt ra rb => Sys2Proof.Machine.execShru rt ra rb s
  | .shr rt ra rb => Sys2Proof.Machine.execShr rt ra rb s
  | .twoAdd rt ra rb => Sys2Proof.Machine.execTwoAdd rt ra rb s
  | .fourAdd rt ra rb => Sys2Proof.Machine.execFourAdd rt ra rb s
  | .eightAdd rt ra rb => Sys2Proof.Machine.execEightAdd rt ra rb s
  | .sixteenAdd rt ra rb => Sys2Proof.Machine.execSixteenAdd rt ra rb s
  | .neg rt ra => Sys2Proof.Machine.execNeg rt ra s
  | .not rt ra => Sys2Proof.Machine.execNot rt ra s
  | .abs rt ra => Sys2Proof.Machine.execAbs rt ra s
  | .com rt ra => Sys2Proof.Machine.execCom rt ra s
  | .jalr rt ra => Sys2Proof.Machine.execJalr rt ra s
  | .cacheInvICache ra => Sys2Proof.Machine.execCacheInvICache ra s
  | .cacheInvILine ra => Sys2Proof.Machine.execCacheInvILine ra s
  | .cacheInvDCache ra => Sys2Proof.Machine.execCacheInvDCache ra s
  | .cacheInvDLine ra => Sys2Proof.Machine.execCacheInvDLine ra s
  | .addi48 rt ra imm => Sys2Proof.Machine.execAddi48 rt ra imm s
  | .cmpi48 pt ra imm => Sys2Proof.Machine.execCmpi48 pt ra imm s
  | .cmpil pt ra imm => Sys2Proof.Machine.execCmpil pt ra imm s
  | .andi48 rt ra imm => Sys2Proof.Machine.execAndi48 rt ra imm s
  | .ori48 rt ra imm => Sys2Proof.Machine.execOri48 rt ra imm s
  | .xori48 rt ra imm => Sys2Proof.Machine.execXori48 rt ra imm s
  | .jal48 rt offset => Sys2Proof.Machine.execJal48 rt offset s
  | .cas rt ra rb rc disp => Sys2Proof.Machine.execCas rt ra rb rc disp s
  | .lb48 rt ra disp => Sys2Proof.Machine.execLb48 rt ra disp s
  | .lbu48 rt ra disp => Sys2Proof.Machine.execLbu48 rt ra disp s
  | .lh48 rt ra disp => Sys2Proof.Machine.execLh48 rt ra disp s
  | .lhu48 rt ra disp => Sys2Proof.Machine.execLhu48 rt ra disp s
  | .lw48 rt ra disp => Sys2Proof.Machine.execLw48 rt ra disp s
  | .sw48 rs ra disp => Sys2Proof.Machine.execSw48 rs ra disp s
  | .mf rt spr => Sys2Proof.Machine.execMf rt spr s
  | .mt spr ra => Sys2Proof.Machine.execMt spr ra s
  | .bfins rt ra mb me => Sys2Proof.Machine.execBfins rt ra mb me s
  | .bfset rt ra mb me => Sys2Proof.Machine.execBfset rt ra mb me s
  | .bfclr rt ra mb me => Sys2Proof.Machine.execBfclr rt ra mb me s
  | .bfchg rt ra mb me => Sys2Proof.Machine.execBfchg rt ra mb me s
  | .bfextu rt ra mb me => Sys2Proof.Machine.execBfextu rt ra mb me s
  | .bfext rt ra mb me => Sys2Proof.Machine.execBfext rt ra mb me s
  | .bfinsi rt imm mb me => Sys2Proof.Machine.execBfinsi rt imm mb me s
  | .addis rt ra imm => Sys2Proof.Machine.execAddis rt ra imm s
  | .cmpiu pt ra imm => Sys2Proof.Machine.execCmpiu pt ra imm s
  | .andis rt ra imm => Sys2Proof.Machine.execAndis rt ra imm s
  | .oris rt ra imm => Sys2Proof.Machine.execOris rt ra imm s
  | .xoris rt ra imm => Sys2Proof.Machine.execXoris rt ra imm s
  | .lc => Sys2Proof.Machine.execLc s
  | .lcu => Sys2Proof.Machine.execLcu s
  | .lvwar => Sys2Proof.Machine.execLvwar s
  | .sb => Sys2Proof.Machine.execSb s
  | .sc => Sys2Proof.Machine.execSc s
  | .sh => Sys2Proof.Machine.execSh s
  | .swcr => Sys2Proof.Machine.execSwcr s
  | .biti48 => Sys2Proof.Machine.execBiti48 s
  | .jsri => Sys2Proof.Machine.execJsri s
  | .lws => Sys2Proof.Machine.execLws s
  | .lcl => Sys2Proof.Machine.execLcl s
  | .lc48 => Sys2Proof.Machine.execLc48 s
  | .lcu48 => Sys2Proof.Machine.execLcu48 s
  | .lwar => Sys2Proof.Machine.execLwar s
  | .lvb => Sys2Proof.Machine.execLvb s
  | .lvc => Sys2Proof.Machine.execLvc s
  | .lvh => Sys2Proof.Machine.execLvh s
  | .lvw => Sys2Proof.Machine.execLvw s
  | .sb48 => Sys2Proof.Machine.execSb48 s
  | .sc48 => Sys2Proof.Machine.execSc48 s
  | .sh48 => Sys2Proof.Machine.execSh48 s
  | .swcr48 => Sys2Proof.Machine.execSwcr48 s
  | .llax => Sys2Proof.Machine.execLlax s

end Sys2Proof.Machine
end

