-- ==== Sys2Proof/Safety.lean ====
section
/-! DEFINITION. The terms in which claims speak: what a state must satisfy, what a step leaves unchanged, how an instruction
completes, and how a run ends (R27, R47, R351, R364). -/

namespace Sys2Proof.Machine

/-! ## What a state satisfies -/

/-- What every step keeps: memory in its canonical form, the storage of r0 zero (R21), and a pending CLI only while the mask
is set (R46 (a)). -/
structure State.Ok (s : State) : Prop where
  memory : s.mem.wf = true
  zeroRegister : s.regs[0] = 0
  pendingMasked : s.cliPending ≠ 0 → s.im = true

/-- Kernel mode, and a return from the last trap stays in it (R357). -/
def State.KernelLocked (s : State) : Prop := s.km = true ∧ s.pkm = true

/-- No interrupt is taken before the next instruction (R348, R358). -/
def State.Undisturbed (s : State) : Prop := s.im = true ∨ s.input.irq = none

/-- `EXC_CODE` gives different kinds different codes (R354). -/
def Platform.CodesDiffer (p : Platform) : Prop :=
  ∀ e f a b, p.trap e = some a → p.trap f = some b → a.code = b.code → e = f

/-! ## Bytes of memory -/

/-- Byte `k` of a number, byte 0 the least significant (R62). -/
def byteOf (v k : Nat) : Byte := BitVec.ofNat 8 (v / 256 ^ k)

/-- The `n` bytes from `a`, addresses modulo 2^64, hold the number `v` little-endian (R62). -/
def Memory.Holds (m : Memory) (a : Word) (n v : Nat) : Prop :=
  v < 256 ^ n ∧ ∀ k < n, m.read (a + BitVec.ofNat 64 k).toNat = some (byteOf v k)

/-- The bytes of a list stand from `a` up, addresses modulo 2^64. -/
def Memory.HoldsBytes (m : Memory) (a : Word) (bs : List Byte) : Prop :=
  ∀ (k : Nat) (b : Byte), bs[k]? = some b → m.read (a + BitVec.ofNat 64 k).toNat = some b

/-- No byte of the `n` from `ea` is address `a`. -/
def Outside (a : Nat) (ea : Word) (n : Nat) : Prop := ∀ k < n, a ≠ (ea + BitVec.ofNat 64 k).toNat

/-! ## What is left unchanged -/

/-- Every general register but those listed reads as before. -/
def SameRegsBut (rs : List Reg) (s t : State) : Prop := ∀ r, r ∉ rs → t.reg r = s.reg r

/-- Every compare register but those listed reads as before. -/
def SamePredsBut (ps : List PReg) (s t : State) : Prop := ∀ p, p ∉ ps → t.pred p = s.pred p

/-- Every byte of memory reads as before. -/
def SameMemory (s t : State) : Prop := ∀ a, t.mem.read a = s.mem.read a

/-- Every byte of memory but the `n` from `ea` reads as before. -/
def SameMemoryBut (ea : Word) (n : Nat) (s t : State) : Prop := ∀ a, Outside a ea n → t.mem.read a = s.mem.read a

/-- The mode, the mask, their shadows, the CLI count, every special register and the model's own fields are as in `s`. To
say that some of them change, `s` is given with those fields updated. -/
structure SameSystem (s t : State) : Prop where
  im : t.im = s.im
  km : t.km = s.km
  pim : t.pim = s.pim
  pkm : t.pkm = s.pkm
  cliPending : t.cliPending = s.cliPending
  epc : t.epc = s.epc
  vba : t.vba = s.vba
  exc : t.exc = s.exc
  lc : t.lc = s.lc
  asid : t.asid = s.asid
  bir : t.bir = s.bir
  tick : t.tick = s.tick
  inputs : t.inputs = s.inputs
  platform : t.platform = s.platform
  draws : t.draws = s.draws

/-- Registers, compare registers and memory are as before: what a trap entry or return leaves alone (R352, R356). -/
def SameData (s t : State) : Prop := SameRegsBut [] s t ∧ SamePredsBut [] s t ∧ SameMemory s t

/-! ## How an instruction completes -/

/-- `rt` reads as written with `v`, or as zero where it is r0 (R21), and no other general register changes. -/
def RegWritten (s t : State) (rt : Reg) (v : Word) : Prop :=
  t.reg rt = (if rt = 0 then 0 else v) ∧ SameRegsBut [rt] s t

/-- The instruction completes; it writes `v` to `rt` and goes on after its `len` bytes; nothing else changes. -/
def Writes (i : Instr) (s : State) (rt : Reg) (v : Word) (len : Nat) : Prop :=
  ∃ t, exec i s = .next t ∧ RegWritten s t rt v ∧ t.pc = s.pc + BitVec.ofNat 64 len ∧ SamePredsBut [] s t ∧
    SameMemory s t ∧ SameSystem s t

/-- The instruction completes; it writes `v` to compare register `pt` and goes on after its `len` bytes; nothing else
changes. -/
def WritesFlags (i : Instr) (s : State) (pt : PReg) (v : CmpReg) (len : Nat) : Prop :=
  ∃ t, exec i s = .next t ∧ t.pred pt = v ∧ SamePredsBut [pt] s t ∧ t.pc = s.pc + BitVec.ofNat 64 len ∧
    SameRegsBut [] s t ∧ SameMemory s t ∧ SameSystem s t

/-- The instruction completes; the pc becomes `target`; nothing else changes. -/
def GoesTo (i : Instr) (s : State) (target : Word) : Prop :=
  ∃ t, exec i s = .next t ∧ t.pc = target ∧ SameData s t ∧ SameSystem s t

/-- The instruction completes; it goes on after its `len` bytes; nothing else changes. -/
def Advances (i : Instr) (s : State) (len : Nat) : Prop := GoesTo i s (s.pc + BitVec.ofNat 64 len)

/-- The instruction completes; `rt` takes the address after its `len` bytes and the pc becomes `target`; nothing else
changes. -/
def Links (i : Instr) (s : State) (rt : Reg) (target : Word) (len : Nat) : Prop :=
  ∃ t, exec i s = .next t ∧ RegWritten s t rt (s.pc + BitVec.ofNat 64 len) ∧ t.pc = target ∧ SamePredsBut [] s t ∧
    SameMemory s t ∧ SameSystem s t

/-- The instruction completes; the eight bytes from `ea` take `v` little-endian and it goes on after its `len` bytes; nothing
else changes. -/
def StoresWord (i : Instr) (s : State) (ea v : Word) (len : Nat) : Prop :=
  ∃ t, exec i s = .next t ∧ t.mem.Holds ea 8 v.toNat ∧ SameMemoryBut ea 8 s t ∧ t.pc = s.pc + BitVec.ofNat 64 len ∧
    SameRegsBut [] s t ∧ SamePredsBut [] s t ∧ SameSystem s t

/-- The instruction completes; the system state becomes that of `u` and it goes on after its `len` bytes; nothing else
changes. -/
def SetsSystem (i : Instr) (s u : State) (len : Nat) : Prop :=
  ∃ t, exec i s = .next t ∧ SameSystem u t ∧ t.pc = s.pc + BitVec.ofNat 64 len ∧ SameData s t

/-! ## How an instruction raises -/

/-- The instruction raises exception `e`, carrying `addr`, having done nothing: a trap entry where the platform vectors the
kind, the terminal fault where it does not (R351, R352, R363). -/
def Raises (i : Instr) (s : State) (e : ExcKind) (addr : Option Word) : Prop :=
  (∀ a, s.platform.trap e = some a →
    ∃ t, exec i s = .next t ∧ t.pc = s.vba + BitVec.ofNat 64 (16 * a.vector.toNat) ∧ SameData s t ∧
      SameSystem { s with epc := s.pc, pkm := s.km, pim := s.im, km := true, im := true, cliPending := 0, exc := a.code } t) ∧
  (s.platform.trap e = none → exec i s = .fault (.exception e s.pc addr))

/-- As `Raises`, for a whole step: fetching or decoding raises before any instruction has executed (R77, R122, R350). -/
def StepRaises (s : State) (e : ExcKind) (addr : Option Word) : Prop :=
  (∀ a, s.platform.trap e = some a →
    ∃ t, step s = .next t ∧ t.pc = s.vba + BitVec.ofNat 64 (16 * a.vector.toNat) ∧ SameData s t ∧
      SameSystem { s with epc := s.pc, pkm := s.km, pim := s.im, km := true, im := true, cliPending := 0, exc := a.code,
                          inputs := s.inputs.tail, draws := s.draws + 1 } t) ∧
  (s.platform.trap e = none → step s = .fault (.exception e s.pc addr))

/-! ## Accesses -/

/-- Where the `n` bytes from `ea` hold a number, `ea` is aligned and the environment answers no fault, the load completes with
that number in `rt`, extended by its sign or by zeros (R70, R270). -/
def Loads (i : Instr) (s : State) (rt : Reg) (ea : Word) (n : Nat) (signed : Bool) (len : Nat) : Prop :=
  ∀ v, s.mem.Holds ea n v → ea.toNat % n = 0 → s.memFault ea n .load = none →
    Writes i s rt (if signed then BitVec.ofInt 64 (BitVec.ofNat (8 * n) v).toInt else BitVec.ofNat 64 v) len

/-- Where `ea` is a multiple of eight and the environment answers no fault, the store of the word `v` completes (R71, R284). -/
def Stores (i : Instr) (s : State) (ea v : Word) (len : Nat) : Prop :=
  ea.toNat % 8 = 0 → s.memFault ea 8 .store = none → StoresWord i s ea v len

/-- An access of `n` bytes at `ea` raises: a misaligned address before all else, then the answer of the environment (R64, R69 to
R71). -/
def AccessRaises (i : Instr) (s : State) (ea : Word) (n : Nat) (kind : AccessKind) : Prop :=
  (ea.toNat % n ≠ 0 → Raises i s .misalignedData (some ea)) ∧
  (∀ f, ea.toNat % n = 0 → s.memFault ea n kind = some f → Raises i s f.kind (some ea))

/-- The instruction completes with a value in `rt` whose bit `k` is `f k`, and goes on after its `len` bytes; nothing else
changes. -/
def WritesBits (i : Instr) (s : State) (rt : Reg) (f : Nat → Bool) (len : Nat) : Prop :=
  ∃ v : Word, (∀ k < 64, v.getLsbD k = f k) ∧ Writes i s rt v len

/-- Bit `k` of a sign-extended immediate (R97). -/
def sextBit {n : Nat} (imm : BitVec n) (k : Nat) : Bool := if k < n then imm.getLsbD k else imm.msb

/-! ## Kinds of instructions -/

/-- The instructions that set the pc to something else than the next address (R27). -/
def transfersControl : Instr → Bool
  | .bf _ _ | .bt _ _ | .beq _ _ | .bne _ _ | .ble _ _ | .bgt _ _ | .bge _ _ | .blt _ _ | .bleu _ _ | .bgtu _ _
  | .bgeu _ _ | .bltu _ _ | .bsig _ _ | .beqs _ _ | .bnes _ _ | .jal _ _ | .jal48 _ _ | .jal16 _ | .jalr _ _ | .rts
  | .int _ | .rti | .rte | .rtd => true
  | _ => false

/-- The instructions whose target is a register's value or a vector (R218, R219, R314, R356). -/
def targetIsData : Instr → Bool
  | .jalr _ _ | .rts | .int _ | .rti | .rte | .rtd => true
  | _ => false

/-- The instructions that can store to memory (R65, R300). -/
def storesMemory : Instr → Bool
  | .sw _ _ _ | .sw48 _ _ _ | .sw16 _ _ _ | .swBp _ _ | .swSp _ _ | .cas _ _ _ _ _ => true
  | _ => false

/-- The instructions that can write a compare register (R30). -/
def writesCompareRegister : Instr → Bool
  | .cmp _ _ _ | .cmpi _ _ _ | .cmpi48 _ _ _ | .cmpil _ _ _ | .cmpiu _ _ _ | .biti _ _ _ | .chk _ _ _ _ | .chku _ _ _ _
  | .mt _ _ => true
  | _ => false

/-- Outcome `t` of the instruction is the entry of a synchronous exception (R352). -/
def EntersTrap (s t : State) : Prop := ∃ e addr, s.raise e addr = .next t

/-! ## Runs (R364) -/

/-- `n` steps from `s`, or the stop met on the way. -/
def runFor : Nat → State → Result
  | 0, s => .next s
  | n + 1, s =>
    match step s with
    | .next t => runFor n t
    | .fault f => .fault f
    | .refused r => .refused r

/-- The next step leads back to the same machine: only the inputs used up and the model's own draw counter differ
(R364 (d)). -/
def State.Idle (s : State) : Prop := step s = .next { s with inputs := s.inputs.tail, draws := s.draws + 1 }

/-- A run of `n` steps meets no stop: no terminal fault, no unspecified value, no refusal (R364 (a) to (c)). -/
def SafeFor (n : Nat) (s : State) : Prop := ∃ t, runFor n s = .next t

end Sys2Proof.Machine
end

