-- ==== Sys2Proof/WellFormed.lean ====
section
/-! DEFINITION. Which instructions an encoder accepts. The machine gives the words of an ill-formed instruction the outcome
their rules state all the same (R220, R300), so no meaning and no decoder depends on this check. -/

namespace Sys2Proof

/-- A transfer displacement is even, so that the target of an aligned instruction is aligned (R220). -/
def evenDisp {n : Nat} (disp : BitVec n) : Bool := disp.toNat % 2 == 0

/-- The target register of CAS is not the stack pointer (R300). -/
def casTargetAllowed (rt : Reg) : Bool := rt != Config.spReg

/-- What an encoder accepts: an even displacement in the jumps and short branches, which hold bit 0 (R102, R210, R220), and
a CAS target other than r14 (R300). Every other field of every instruction may take every value of its width. -/
def Instr.wellFormed : Instr → Bool
  | .beqs _ disp => evenDisp disp
  | .bnes _ disp => evenDisp disp
  | .jal16 disp => evenDisp disp
  | .jal _ offset => evenDisp offset
  | .jal48 _ offset => evenDisp offset
  | .cas rt _ _ _ _ => casTargetAllowed rt
  | _ => true

end Sys2Proof
end

