-- ==== Sys2Proof/Certificates/Slice0/Obligations.lean ====
section
/-! DEFINITION. The statements for the provers. A docstring that names a decision D<n> of the spec or a log entry says that
the statement rests on it. -/

open Sys2Proof Sys2Proof.Machine

/-! ## Decoding and encoding -/

/-- Every instruction is read back from its own word, with every operand at every value, whichever 32-bit byte without another
meaning is the container's (R5, R99 to R117, D2 to D7; log 23). -/
def Obligations.DecodeInvertsEncode : Prop :=
  ∀ (p : Encodings) (i : Instr), p.provisional = true → p.containerFree = true → decodeWord p (encode p i) = .ok i

/-- The bytes of an instruction, followed by any bytes, decode to it and leave those bytes (R5, R63, R91, D2, D8; log 23). -/
def Obligations.BytesRoundTrip : Prop :=
  ∀ (p : Encodings) (i : Instr) (rest : List Byte), p.provisional = true → p.containerFree = true →
    decodeBytes p (encodeBytes p i ++ rest) = .ok (i, rest)

/-- What is decoded takes as many bytes as the top two bits of its first byte say (R91, D2). -/
def Obligations.LengthFromOpcode : Prop :=
  ∀ (p : Encodings) (b : Byte) (bs rest : List Byte) (i : Instr), decodeBytes p (b :: bs) = .ok (i, rest) →
    byteLength i = 2 * (b.toNat / 64 + 1) ∧ b :: bs = (b :: bs).take (byteLength i) ++ rest ∧
      byteLength i ≤ (b :: bs).length

/-- With the spec-assigned encodings off, exactly the container's byte, 9Bh and 9Dh decode otherwise: they are reserved. A byte
that has another meaning keeps it and is not the container's (R5, R110, R121 (7), D4, D5; log 23). -/
def Obligations.ProvisionalSwitch : Prop :=
  ∀ (p : Encodings) (w : Nat), decodeWord { p with provisional := false } w =
    if (w % 256 = p.opcL24.toNat ∧ p.containerFree = true) ∨ w % 256 = 0x9B ∨ w % 256 = 0x9D then
      .error (.provisionalOff (w % 256))
    else decodeWord { p with provisional := true } w

/-- The opcode bytes that are refused as reserved whatever follows them are those of the table, 5Ch among them where the
container's byte is another one (R5, R118; log 23). -/
def Obligations.ReservedOpcodes : Prop :=
  ∀ (p : Encodings) (w : Nat), decodeWord p w = .error (.reservedOpcode (w % 256)) ↔
    (w % 256 ∈ [0x0D, 0x32, 0x3C, 0x3D, 0x3E, 0x3F, 0x8C, 0x9C, 0x9E, 0x9F, 0xB4, 0xB5, 0xB6] ∨
      (0x83 ≤ w % 256 ∧ w % 256 ≤ 0x87) ∨ (0x90 ≤ w % 256 ∧ w % 256 ≤ 0x9A) ∨ (0xB9 ≤ w % 256 ∧ w % 256 ≤ 0xDF) ∨
      (0xE2 ≤ w % 256 ∧ w % 256 ≤ 0xE7) ∨ 0xEB ≤ w % 256 ∨
      (w % 256 ≠ p.opcL24.toNat ∧
        (w % 256 ∈ [0x5A, 0x5B, 0x5C, 0x5D, 0x5E, 0x5F, 0x68, 0x69, 0x6A, 0x74, 0x75, 0x76] ∨
          (0x43 ≤ w % 256 ∧ w % 256 ≤ 0x47) ∨ (0x4C ≤ w % 256 ∧ w % 256 ≤ 0x51) ∨ (0x53 ≤ w % 256 ∧ w % 256 ≤ 0x58) ∨
          (0x78 ≤ w % 256 ∧ w % 256 ≤ 0x7F))))

/-- Two words that differ only in bits that a format leaves unused decode alike: the padding of the widened formats, `sel3` of
the five RR instructions that ignore it, the high bits of a compare register's slot, `Sg3` (R31, R96, R108 to R117, D7, D17; the
container's byte is log 23). -/
def Obligations.UnusedBitsIgnored : Prop :=
  ∀ (p : Encodings) (w v : Nat),
    let agree (lo n : Nat) : Prop := w % 2 ^ lo = v % 2 ^ lo ∧ w / 2 ^ (lo + n) = v / 2 ^ (lo + n)
    let op (b : Nat) : Prop := w % 256 = b ∧ v % 256 = b
    let c := p.opcL24.toNat
    let alike : Prop := decodeWord p w = decodeWord p v
    (op 0x42 → field w 26 6 = 0x02 → agree 21 5 → alike) ∧
    (op 0x42 → field w 26 6 ∈ [0x08, 0x09, 0x0C, 0x0D] → agree 23 3 → alike) ∧
    (op 0x4B → agree 16 2 → alike) ∧ (op 0x41 → agree 16 2 → alike) ∧
    (op 0x52 → agree 17 1 → alike) ∧ (op 0x52 → agree 11 2 → alike) ∧
    (p.containerFree = true → op c → agree 24 2 → alike) ∧
    (p.containerFree = true → op c → field w 26 6 = 0x1B → agree 13 5 → alike) ∧
    (op 0x81 → agree 16 2 → alike) ∧ (op 0x82 → agree 16 2 → alike) ∧ (op 0x82 → agree 42 6 → alike) ∧
    (op 0x9D → agree 40 8 → alike) ∧
    (∀ b ∈ [0xA0, 0xA1, 0xA4, 0xA5, 0xA6, 0xB3], op b → agree 45 3 → alike) ∧
    (∀ b ∈ [0xA8, 0xA9], op b → agree 24 24 → alike) ∧ (∀ b ∈ [0xAA, 0xAB], op b → agree 32 16 → alike) ∧
    (∀ b ∈ [0xE0, 0xE1, 0xE8, 0xE9, 0xEA], op b → agree 58 6 → alike) ∧ (op 0xE1 → agree 16 2 → alike)

/-- The `33h` group: which instruction each second byte is, all others being refused (R106). -/
def Obligations.SystemGroup : Prop :=
  ∀ (p : Encodings) (sub8 : Nat), sub8 < 256 →
    decodeWord p (0x33 + 256 * sub8) =
      match [(0x00, Instr.rts), (0x01, .rti), (0x02, .rtd), (0x03, .rte), (0x80, .sync), (0x82, .memdb), (0x83, .memsb),
          (0x90, .cli), (0x91, .sei), (0xE1, .nopE1), (0xE4, .mrk1), (0xE5, .mrk2), (0xE6, .mrk3), (0xE7, .mrk4),
          (0xEA, .nopEA)].find? fun x => x.1 == sub8 with
      | some x => .ok x.2
      | none => .error (.reservedFunction 0x33 sub8)

/-- Words that the spec writes out, one or two of each family, decode to the instructions it gives for them
(`95_test_vectors.md` sections 4 to 10; rests on the decisions named there). -/
def Obligations.WordsOfTheSpec : Prop :=
  decodeTableWord 32 0x000CA442 = some (.add 3 4 5) ∧ decodeTableWord 16 0x230C = some (.add16 3 1) ∧
  decodeTableWord 64 0x0048D159E26860E0 = some (.addis 3 0 0x123456789A) ∧
  decodeTableWord 32 0x1C0CA45C = some (.andc 3 4 5) ∧ decodeTableWord 32 0x00204152 = some (.beq 1 8) ∧
  decodeTableWord 48 0x02468ACF019B = some (.jal48 1 0x12345678) ∧
  decodeTableWord 48 0x00000F2064AB = some (.bfextu 3 4 8 15) ∧ decodeTableWord 32 0xAC0CA45C = some (.shru 3 4 5) ∧
  decodeTableWord 32 0x0118A459 = some (.chk 2 4 5 6) ∧ decodeTableWord 48 0x02F37BC02482 = some (.cmpil 1 4 0xBCDEF0) ∧
  decodeTableWord 48 0x1FFFFFE064A6 = some (.lw48 3 4 (-8)) ∧ decodeTableWord 16 0x1112 = some (.lw16 1 2 2) ∧
  decodeTableWord 48 0x00010198A49D = some (.cas 3 4 5 6 16) ∧ decodeTableWord 48 0x0000000683A8 = some (.mf 3 52) ∧
  decodeTableWord 16 0x0131 = some (.int 3) ∧ decodeTableWord 32 0x00000070 = some .sb

/-! ## The step -/

/-- Where the bytes at an even pc are the bytes of instruction `i`, no interrupt is taken and no parcel is refused, the step
runs `exec` on `i` with the bookkeeping that `StepBookkeeping` states (R77, R121, R350, D8). -/
def Obligations.StepRunsDecodedInstruction : Prop :=
  ∀ (s : State) (bs : List Byte) (i : Instr), s.Undisturbed → s.pc.toNat % 2 = 0 → s.mem.HoldsBytes s.pc bs →
    (∀ k, 2 * k < bs.length → s.memFault (s.pc + BitVec.ofNat 64 (2 * k)) 2 .fetch = none) →
    decodeBytes s.platform.encodings bs = .ok (i, []) → step s = runInstr exec i s

/-- What the step adds around `exec`: the inputs of the step are used up, the draw counter moves, and while a CLI is pending
each completed instruction counts down, the mask clearing at zero, except the CLI that has just drawn its delay (R46 (a), R312,
D29; logs 7, 13, 15). A stop of `exec` is the stop of the step. -/
def Obligations.StepBookkeeping : Prop :=
  ∀ (i : Instr) (s : State),
    (∀ f, exec i s = .fault f → runInstr exec i s = .fault f) ∧
    (∀ r, exec i s = .refused r → runInstr exec i s = .refused r) ∧
    (∀ t, exec i s = .next t →
      if t.cliPending = 0 ∨ (i = .cli ∧ s.km = true ∧ s.im = true) then
        runInstr exec i s = .next { t with inputs := t.inputs.tail, draws := t.draws + 1 }
      else
        runInstr exec i s = .next { t with inputs := t.inputs.tail, draws := t.draws + 1, cliPending := t.cliPending - 1,
                                           im := if t.cliPending = 1 then false else t.im })

/-- A requested interrupt that the mask does not hold off is taken instead of fetching: the pc is saved as it stands, the cause
register is not written, and of the spec's state nothing else changes; the entry is a step, which uses up one record of inputs
and one draw (R348, R352, D23, D24; logs 7, 13). -/
def Obligations.InterruptTaken : Prop :=
  ∀ (s : State) (vec : BitVec 9), s.im = false → s.input.irq = some vec →
    ∃ t, step s = .next t ∧ t.pc = s.vba + BitVec.ofNat 64 (16 * vec.toNat) ∧ SameData s t ∧
      SameSystem { s with epc := s.pc, pkm := s.km, pim := s.im, km := true, im := true, cliPending := 0,
                          inputs := s.inputs.tail, draws := s.draws + 1 } t

/-- What a step raises before an instruction executes: an odd pc; a refused parcel, the parcels before it read; a reserved
encoding. The raise ends the step, which uses up one record of inputs and one draw (R28, R77, R122, R345 to R347, R350, D9, D22,
D28, D46; logs 7, 13). -/
def Obligations.FetchRaises : Prop :=
  ∀ (s : State) (bs : List Byte), s.Undisturbed →
    (s.pc.toNat % 2 = 1 → StepRaises s .misalignedFetch none) ∧
    (∀ k, s.pc.toNat % 2 = 0 → bs.length = 2 * k → s.mem.HoldsBytes s.pc bs →
      (∀ j < k, s.memFault (s.pc + BitVec.ofNat 64 (2 * j)) 2 .fetch = none) →
      s.memFault (s.pc + BitVec.ofNat 64 (2 * k)) 2 .fetch ≠ none →
      (k = 0 ∨ ∃ b, bs[0]? = some b ∧ 2 * k < 2 * (b.toNat / 64 + 1)) →
      StepRaises s .fetchFault (some (s.pc + BitVec.ofNat 64 (2 * k)))) ∧
    (∀ r, s.pc.toNat % 2 = 0 → s.mem.HoldsBytes s.pc bs → (∃ b, bs[0]? = some b ∧ bs.length = 2 * (b.toNat / 64 + 1)) →
      (∀ k, 2 * k < bs.length → s.memFault (s.pc + BitVec.ofNat 64 (2 * k)) 2 .fetch = none) →
      decodeBytes s.platform.encodings bs = .error r → StepRaises s .illegalInstruction none)

/-! ## Reset and invariants -/

/-- After reset r0 reads zero, the mode is kernel, interrupts are masked and no CLI is pending (R21, R47; the spec's decisions
D25 and D38). -/
def Obligations.ResetValues : Prop :=
  State.reset.reg 0 = 0 ∧ State.reset.km = true ∧ State.reset.im = true ∧ State.reset.cliPending = 0

/-- The MODEL's choices at reset, which no rule of the spec gives (logs 1 to 6, 8, 9): the pc, the other registers and the flags
are zero, no byte of memory holds a value, and so the first step of the empty machine stops for want of an instruction. -/
def Obligations.ResetModelChoices : Prop :=
  State.reset.pc = 0 ∧ (∀ r, State.reset.reg r = 0) ∧ (∀ p, State.reset.pred p = ⟨false, false, false⟩) ∧
  State.reset.epc = 0 ∧ State.reset.vba = 0 ∧ State.reset.exc = 0 ∧ State.reset.lc = 0 ∧ State.reset.asid = 0 ∧
  State.reset.bir = 0 ∧ State.reset.tick = 0 ∧ State.reset.pim = true ∧ State.reset.pkm = true ∧
  (∀ a, State.reset.mem.read a = none) ∧ step State.reset = .fault (.unspecifiedMemory 0)

/-- The invariants hold at reset (the second one rests on the model's choice of `pkm`, log 5). -/
def Obligations.ResetOk : Prop := State.reset.Ok ∧ State.reset.KernelLocked

/-- Every step keeps memory in its canonical form, the storage of r0 zero, and a pending CLI only under a set mask (R21, R46
(a), R312, R352, D29, D38). -/
def Obligations.StepKeepsOk : Prop := ∀ s t : State, s.Ok → step s = .next t → t.Ok

/-- From kernel mode with kernel mode saved no step leaves kernel mode or clears the saved one (R352, R356, R357, D23, D34). -/
def Obligations.StepKeepsKernelLocked : Prop := ∀ s t : State, s.KernelLocked → step s = .next t → t.KernelLocked

/-- No step changes an open parameter, and every step uses up one record of inputs and one draw (R5; logs 7, 10 to 13). -/
def Obligations.StepKeepsPlatform : Prop :=
  ∀ s t : State, step s = .next t → t.platform = s.platform ∧ t.inputs = s.inputs.tail ∧ t.draws = s.draws + 1

/-- In user mode an instruction either enters a trap, by INT or by raising, and is then in kernel mode with interrupts masked,
or leaves the mode, the mask, their shadows and the CLI count alone (R357, R358, D23, D34). -/
def Obligations.UserModeConfined : Prop :=
  ∀ (i : Instr) (s t : State), s.km = false → exec i s = .next t →
    (((∃ n, i = .int n) ∨ EntersTrap s t) ∧ t.km = true ∧ t.im = true ∧ t.pkm = false ∧ t.pim = s.im) ∨
    (t.km = false ∧ t.im = s.im ∧ t.pkm = s.pkm ∧ t.pim = s.pim ∧ t.cliPending = s.cliPending)

/-- Only the word stores and CAS write memory (R65, R300, R128, D37, D41). -/
def Obligations.MemoryWriters : Prop :=
  ∀ (i : Instr) (s t : State), exec i s = .next t → storesMemory i = false → SameMemory s t

/-- Only the compare, test and bounds-check instructions and MT write a compare register, and of those CHK and CHKU leave `lt`
and `ltu`, and CMPIL leaves all where `eq` was clear (R30, D32, D48). -/
def Obligations.CompareRegisterWriters : Prop :=
  ∀ (i : Instr) (s t : State), exec i s = .next t →
    (writesCompareRegister i = false → SamePredsBut [] s t) ∧
    (∀ pt ra rb rc, i = .chk pt ra rb rc ∨ i = .chku pt ra rb rc →
      (t.pred pt).lt = (s.pred pt).lt ∧ (t.pred pt).ltu = (s.pred pt).ltu) ∧
    (∀ pt ra imm, i = .cmpil pt ra imm → (s.pred pt).eq = false → SamePredsBut [] s t)

/-- Every instruction that is no transfer and enters no trap goes on at the address after its bytes (R27, R91, D2, D22). -/
def Obligations.PcAdvances : Prop :=
  ∀ (i : Instr) (s t : State), exec i s = .next t → transfersControl i = false →
    t.pc = s.pc + BitVec.ofNat 64 (byteLength i) ∨ EntersTrap s t

/-- Only MT writes LC, ASID, BIR and VBA; EPC and EXC are written by MT and by trap entry alone; the last value read of TICK,
which is the model's form of it (log 6), moves only when MF reads it (R35 to R43, D23, D24, D31, D33). -/
def Obligations.SpecialRegisterWriters : Prop :=
  ∀ (i : Instr) (s t : State), exec i s = .next t → (∀ n ra, i ≠ .mt n ra) →
    t.lc = s.lc ∧ t.asid = s.asid ∧ t.bir = s.bir ∧ t.vba = s.vba ∧
    ((∃ n, i = .int n) ∨ EntersTrap s t ∨ t.epc = s.epc) ∧ (EntersTrap s t ∨ t.exc = s.exc) ∧
    ((∃ rt n, i = .mf rt n) ∨ t.tick = s.tick)

/-- A well-formed transfer with a displacement, and every instruction that only advances, leads from an even pc to an even pc
(R28, R90, R220, D9, D44). -/
def Obligations.PcStaysEven : Prop :=
  ∀ (i : Instr) (s t : State), i.wellFormed = true → targetIsData i = false → s.pc.toNat % 2 = 0 → exec i s = .next t →
    t.pc.toNat % 2 = 0 ∨ EntersTrap s t

/-! ## Taking an exception and returning -/

/-- An instruction that ends in a terminal exception on a platform without vectors takes, on a platform that vectors that kind,
the trap of R352 and nothing else; the terminal fault carries its own pc (R351, R352, R363, D22, D23, D24). -/
def Obligations.TrapsMirrorFaults : Prop :=
  ∀ (i : Instr) (s : State) (e : ExcKind) (pc : Word) (addr : Option Word),
    exec i { s with platform := { s.platform with traps := [] } } = .fault (.exception e pc addr) →
    pc = s.pc ∧ Raises i s e addr

/-- A trap return straight after a trap entry resumes at the saved address in the old mode under the old mask, with the data
untouched: at the raising instruction itself for an exception, after it for INT. After a second trap inside the first one, the
return comes to the inner address in kernel mode with interrupts masked (R351, R355, R356, D22, D23, D35). -/
def Obligations.TrapReturnUndoesTrap : Prop :=
  ∀ (s t : State),
    (∀ e addr, s.raise e addr = .next t →
      ∃ u, exec .rti t = .next u ∧ u.pc = s.pc ∧ u.km = s.km ∧ u.im = s.im ∧ SameData s u) ∧
    (∀ n, exec (.int n) s = .next t →
      ∃ u, exec .rti t = .next u ∧ u.pc = s.pc + 2 ∧ u.km = s.km ∧ u.im = s.im ∧ SameData s u) ∧
    (∀ e f addr addr' u, s.raise e addr = .next t → t.raise f addr' = .next u →
      ∃ v, exec .rti u = .next v ∧ v.pc = t.pc ∧ v.km = true ∧ v.im = true)

/-- With an injective cause map a handler can tell the kinds apart by EXC (R352, R354, D24). -/
def Obligations.CauseCodesTellKindsApart : Prop :=
  ∀ (s t u : State) (e f : ExcKind) (a b : Option Word), s.platform.CodesDiffer → s.raise e a = .next t →
    s.raise f b = .next u → t.exc = u.exc → e = f

/-- INT enters its vector with the next instruction as the return address and no cause code; RTI, RTE and RTD in kernel mode
return to EPC with the shadow mode and mask (R314, R319 to R321, R349, R356, D23, D34, D35; log 21). -/
def Obligations.TrapInstructions : Prop :=
  ∀ s : State,
    (∀ n : BitVec 9, ∃ t, exec (.int n) s = .next t ∧ t.pc = s.vba + BitVec.ofNat 64 (16 * n.toNat) ∧ SameData s t ∧
      SameSystem { s with epc := s.pc + 2, pkm := s.km, pim := s.im, km := true, im := true, cliPending := 0 } t) ∧
    (s.km = true → ∀ i ∈ [Instr.rti, .rte, .rtd], ∃ t, exec i s = .next t ∧ t.pc = s.epc ∧ SameData s t ∧
      SameSystem { s with km := s.pkm, im := s.pim, cliPending := 0 } t)

/-! ## Arithmetic -/

/-- The scaled adds multiply `Ra` by 2, 4, 8 or 16 and add `Rb` or the sign-extended immediate, modulo 2^64, with r0 as target
discarding (R21, R97, R141 to R148, D4, D11, D38). -/
def Obligations.ScaledAdds : Prop :=
  ∀ (s : State) (rt ra rb : Reg) (imm : BitVec 14),
    let a := (s.reg ra).toInt
    let b := (s.reg rb).toInt
    Writes (.twoAdd rt ra rb) s rt (BitVec.ofInt 64 (2 * a + b)) 4 ∧
    Writes (.twoAddi rt ra imm) s rt (BitVec.ofInt 64 (2 * a + imm.toInt)) 4 ∧
    Writes (.fourAdd rt ra rb) s rt (BitVec.ofInt 64 (4 * a + b)) 4 ∧
    Writes (.fourAddi rt ra imm) s rt (BitVec.ofInt 64 (4 * a + imm.toInt)) 4 ∧
    Writes (.eightAdd rt ra rb) s rt (BitVec.ofInt 64 (8 * a + b)) 4 ∧
    Writes (.eightAddi rt ra imm) s rt (BitVec.ofInt 64 (8 * a + imm.toInt)) 4 ∧
    Writes (.sixteenAdd rt ra rb) s rt (BitVec.ofInt 64 (16 * a + b)) 4 ∧
    Writes (.sixteenAddi rt ra imm) s rt (BitVec.ofInt 64 (16 * a + imm.toInt)) 4

/-- ADD and SUB, register-register: every word with opcode 42h, `func6` 00h or 01h and `sel3` 0 is one of them, and it writes
the sum or the difference modulo 2^64 and nothing else (R150, R164; r0 as target discards, D38). -/
def Obligations.AddSubRegister : Prop :=
  ∀ (s : State) (p : Encodings) (w : Nat) (rt ra rb : Reg),
    (field w 0 8 = 0x42 → field w 26 6 = 0x00 → field w 23 3 = 0 →
      decodeWord p w = .ok (.add (regAt w 18) (regAt w 8) (regAt w 13))) ∧
    (field w 0 8 = 0x42 → field w 26 6 = 0x01 → field w 23 3 = 0 →
      decodeWord p w = .ok (.sub (regAt w 18) (regAt w 8) (regAt w 13))) ∧
    Writes (.add rt ra rb) s rt (BitVec.ofNat 64 ((s.reg ra).toNat + (s.reg rb).toNat)) 4 ∧
    Writes (.sub rt ra rb) s rt (BitVec.ofInt 64 ((s.reg ra).toInt - (s.reg rb).toInt)) 4

/-- The other additions: short and immediate forms with a sign-extended immediate, the stack and base pointer forms on r14 and
r2, the shifted immediate, LDI, NEG and ABS (R97, R149 to R156, R160, R163, D11 to D13, D38; the base pointer is log 28). -/
def Obligations.AddForms : Prop :=
  ∀ (s : State) (rt ra : Reg) (c : Reg3) (imm5 : BitVec 5) (imm10 : BitVec 10) (imm14 : BitVec 14) (imm30 : BitVec 30)
    (imm40 : BitVec 40),
    let x (r : Reg) : Int := (s.reg r).toInt
    Writes (.add16 rt c) s rt (BitVec.ofInt 64 (x rt + x (reg3 c))) 2 ∧
    Writes (.addi rt ra imm14) s rt (BitVec.ofInt 64 (x ra + imm14.toInt)) 4 ∧
    Writes (.addi48 rt ra imm30) s rt (BitVec.ofInt 64 (x ra + imm30.toInt)) 6 ∧
    Writes (.addi16 rt imm5) s rt (BitVec.ofInt 64 (x rt + imm5.toInt)) 2 ∧
    Writes (.addiSp imm10) s 14 (BitVec.ofInt 64 (x 14 + imm10.toInt)) 2 ∧
    Writes (.addiBp imm10) s 2 (BitVec.ofInt 64 (x 2 + imm10.toInt)) 2 ∧
    Writes (.addis rt ra imm40) s rt (BitVec.ofInt 64 (x ra + imm40.toNat * 2 ^ 24)) 8 ∧
    Writes (.ldi rt imm5) s rt (BitVec.ofInt 64 imm5.toInt) 2 ∧
    Writes (.neg rt ra) s rt (BitVec.ofInt 64 (-x ra)) 4 ∧
    Writes (.abs rt ra) s rt (BitVec.ofNat 64 (x ra).natAbs) 4

/-- ADDO and SUBO complete where the signed result fits 64 bits (R157, R165, R166, D45). -/
def Obligations.OverflowCheckedSums : Prop :=
  ∀ (s : State) (rt ra rb : Reg),
    let a := (s.reg ra).toInt
    let b := (s.reg rb).toInt
    (-2 ^ 63 ≤ a + b → a + b < 2 ^ 63 → Writes (.addo rt ra rb) s rt (BitVec.ofInt 64 (a + b)) 4) ∧
    (-2 ^ 63 ≤ a - b → a - b < 2 ^ 63 → Writes (.subo rt ra rb) s rt (BitVec.ofInt 64 (a - b)) 4)

/-- DIV rounds toward zero where the divisor is not zero and the quotient fits; DIVU never raises, and a zero divisor leaves
only its result open (R158, R159, D20; the open quotient is log 16). -/
def Obligations.Divides : Prop :=
  ∀ (s : State) (rt ra rb : Reg),
    (s.reg rb ≠ 0 → ¬ ((s.reg ra).toInt = -2 ^ 63 ∧ (s.reg rb).toInt = -1) →
      Writes (.div rt ra rb) s rt (BitVec.ofInt 64 ((s.reg ra).toInt.tdiv (s.reg rb).toInt)) 4) ∧
    (s.reg rb ≠ 0 → Writes (.divu rt ra rb) s rt (BitVec.ofNat 64 ((s.reg ra).toNat / (s.reg rb).toNat)) 4) ∧
    (s.reg rb = 0 → ∃ q, Writes (.divu rt ra rb) s rt q 4)

/-- ADDO, SUBO and DIV raise where the signed result does not fit, and DIV where the divisor is zero, with r0 as the target too;
the target is not written (R140, R157, R158, R165, R166, R341, R342, D20, D22, D45). -/
def Obligations.ArithmeticRaises : Prop :=
  ∀ (s : State) (rt ra rb : Reg),
    let a := (s.reg ra).toInt
    let b := (s.reg rb).toInt
    (¬ (-2 ^ 63 ≤ a + b ∧ a + b < 2 ^ 63) → Raises (.addo rt ra rb) s .integerOverflow none) ∧
    (¬ (-2 ^ 63 ≤ a - b ∧ a - b < 2 ^ 63) → Raises (.subo rt ra rb) s .integerOverflow none) ∧
    (a = -2 ^ 63 → b = -1 → Raises (.div rt ra rb) s .integerOverflow none) ∧
    (b = 0 → Raises (.div rt ra rb) s .divideByZero none)

/-! ## Logical -/

/-- AND, NAND, NOR and XOR, register-register: every word with opcode 42h and their `func6` is one of them, `sel3` unused but
for XOR, and bit by bit it writes the function its name says and nothing else (R181, R187, R188, R195; r0 as target discards,
D38). -/
def Obligations.LogicalRegister : Prop :=
  ∀ (s : State) (p : Encodings) (w : Nat) (rt ra rb : Reg),
    let a (k : Nat) := (s.reg ra).getLsbD k
    let b (k : Nat) := (s.reg rb).getLsbD k
    (field w 0 8 = 0x42 →
      (field w 26 6 = 0x08 → decodeWord p w = .ok (.and (regAt w 18) (regAt w 8) (regAt w 13))) ∧
      (field w 26 6 = 0x0C → decodeWord p w = .ok (.nand (regAt w 18) (regAt w 8) (regAt w 13))) ∧
      (field w 26 6 = 0x0D → decodeWord p w = .ok (.nor (regAt w 18) (regAt w 8) (regAt w 13))) ∧
      (field w 26 6 = 0x0A → field w 23 3 = 0 → decodeWord p w = .ok (.xor (regAt w 18) (regAt w 8) (regAt w 13)))) ∧
    WritesBits (.and rt ra rb) s rt (fun k => a k && b k) 4 ∧ WritesBits (.nand rt ra rb) s rt (fun k => !(a k && b k)) 4 ∧
    WritesBits (.nor rt ra rb) s rt (fun k => !(a k || b k)) 4 ∧ WritesBits (.xor rt ra rb) s rt (fun k => a k != b k) 4

/-- The other logical instructions on registers: OR and the 16-bit forms, whose target is the first source, ANDC, XNOR, COM, and
NOT, which writes one exactly where the source is zero (R182, R183, R186, R189 to R191, R194, D4, D6, D12). -/
def Obligations.LogicalOther : Prop :=
  ∀ (s : State) (rt ra rb : Reg) (c : Reg3),
    let x (r : Reg) (k : Nat) := (s.reg r).getLsbD k
    WritesBits (.or rt ra rb) s rt (fun k => x ra k || x rb k) 4 ∧
    WritesBits (.and16 rt c) s rt (fun k => x rt k && x (reg3 c) k) 2 ∧
    WritesBits (.or16 rt c) s rt (fun k => x rt k || x (reg3 c) k) 2 ∧
    WritesBits (.andc rt ra rb) s rt (fun k => x ra k && !x rb k) 4 ∧
    WritesBits (.xnor rt ra rb) s rt (fun k => x ra k == x rb k) 4 ∧
    WritesBits (.com rt ra) s rt (fun k => !x ra k) 4 ∧
    Writes (.not rt ra) s rt (if (s.reg ra).toNat = 0 then 1 else 0) 4

/-- The logical instructions with an immediate: sign-extended in the 32- and 48-bit forms; at bits 63:24 in the 64-bit forms,
with zeros below for OR and XOR and ones below for AND (R97, R184, R185, R192, R193, R196, R197, D11). -/
def Obligations.LogicalImmediate : Prop :=
  ∀ (s : State) (rt ra : Reg) (imm14 : BitVec 14) (imm30 : BitVec 30) (imm40 : BitVec 40),
    let a (k : Nat) := (s.reg ra).getLsbD k
    WritesBits (.andi rt ra imm14) s rt (fun k => a k && sextBit imm14 k) 4 ∧
    WritesBits (.andi48 rt ra imm30) s rt (fun k => a k && sextBit imm30 k) 6 ∧
    WritesBits (.andis rt ra imm40) s rt (fun k => a k && (decide (k < 24) || imm40.getLsbD (k - 24))) 8 ∧
    WritesBits (.ori rt ra imm14) s rt (fun k => a k || sextBit imm14 k) 4 ∧
    WritesBits (.ori48 rt ra imm30) s rt (fun k => a k || sextBit imm30 k) 6 ∧
    WritesBits (.oris rt ra imm40) s rt (fun k => a k || (decide (24 ≤ k) && imm40.getLsbD (k - 24))) 8 ∧
    WritesBits (.xori rt ra imm14) s rt (fun k => a k != sextBit imm14 k) 4 ∧
    WritesBits (.xori48 rt ra imm30) s rt (fun k => a k != sextBit imm30 k) 6 ∧
    WritesBits (.xoris rt ra imm40) s rt (fun k => a k != (decide (24 ≤ k) && imm40.getLsbD (k - 24))) 8

/-- A 64-bit constant is loaded, and'ed or xor'ed by the pair of a shifted-immediate and a 48-bit instruction, the six spare
bits of the second immediate zeros, or ones for AND (R198, an inference the spec marks as its own). -/
def Obligations.FullWidthConstants : Prop :=
  ∀ (s : State) (rt ra : Reg) (c : Word), rt ≠ 0 →
    let high : BitVec 40 := c.extractLsb' 24 40
    let low : BitVec 30 := (c.setWidth 24).setWidth 30
    (∃ t u, exec (.oris rt 0 high) s = .next t ∧ exec (.ori48 rt rt low) t = .next u ∧ u.reg rt = c) ∧
    (∃ t u, exec (.andis rt ra high) s = .next t ∧ exec (.andi48 rt rt (0x3F000000#30 ||| low)) t = .next u ∧
      u.reg rt = s.reg ra &&& c) ∧
    (∃ t u, exec (.xoris rt ra high) s = .next t ∧ exec (.xori48 rt rt low) t = .next u ∧ u.reg rt = s.reg ra ^^^ c)

/-! ## Branches and jumps -/

/-- The condition table: for each displacement there is one target, where each conditional branch goes exactly where its
condition holds on the flags as they stand, and otherwise on after its bytes; conditions 12, 14 and 15 are no instruction
(R109 (c), R211 to R213, D18, D28, D36; the signal is log 13). -/
def Obligations.BranchConditions : Prop :=
  ∀ (s : State) (disp : BitVec 14),
    (∃ target : Word, ∀ p : PReg,
      let f := s.pred p
      let goes (holds : Prop) [Decidable holds] (i : Instr) : Prop := GoesTo i s (if holds then target else s.pc + 4)
      goes False (.bf p disp) ∧ goes True (.bt p disp) ∧ goes (f.eq = true) (.beq p disp) ∧ goes (f.eq = false) (.bne p disp) ∧
      goes (f.lt = true ∨ f.eq = true) (.ble p disp) ∧ goes (f.lt = false ∧ f.eq = false) (.bgt p disp) ∧
      goes (f.lt = false) (.bge p disp) ∧ goes (f.lt = true) (.blt p disp) ∧
      goes (f.ltu = true ∨ f.eq = true) (.bleu p disp) ∧ goes (f.ltu = false ∧ f.eq = false) (.bgtu p disp) ∧
      goes (f.ltu = false) (.bgeu p disp) ∧ goes (f.ltu = true) (.bltu p disp) ∧
      goes (s.input.signal = true) (.bsig p disp)) ∧
    (∀ (p : Encodings) (w cond : Nat), field w 0 8 = 0x52 → field w 13 4 = cond → cond ∈ [12, 14, 15] →
      decodeWord p w = .error (.reservedFunction 0x52 cond))

/-- Where a taken branch goes: the even 15-bit displacement of Bcc, the 7-bit byte displacement of BEQS and BNES, sign-extended,
from the next instruction (R210, R211, R214, R215, D10, D11, D44). -/
def Obligations.BranchTargets : Prop :=
  ∀ (s : State) (p : PReg) (disp : BitVec 14) (short : BitVec 7),
    GoesTo (.bt p disp) s (BitVec.ofInt 64 (s.pc.toNat + 4 + 2 * disp.toInt)) ∧
    GoesTo (.beqs p short) s
      (if (s.pred p).eq then BitVec.ofInt 64 (s.pc.toNat + 2 + short.toInt) else s.pc + 2) ∧
    GoesTo (.bnes p short) s
      (if (s.pred p).eq then s.pc + 2 else BitVec.ofInt 64 (s.pc.toNat + 2 + short.toInt))

/-- JAL in its three lengths, JALR and RTS: the link register takes the next address, the jump goes to a sign-extended
displacement from it or to the old value of the register, bit 0 as it is (R10, R216 to R219, D9, D10, D40, D44). -/
def Obligations.Jumps : Prop :=
  ∀ (s : State) (rt ra : Reg) (off19 : BitVec 19) (off35 : BitVec 35) (off10 : BitVec 10),
    Links (.jal rt off19) s rt (BitVec.ofInt 64 (s.pc.toNat + 4 + off19.toInt)) 4 ∧
    Links (.jal48 rt off35) s rt (BitVec.ofInt 64 (s.pc.toNat + 6 + off35.toInt)) 6 ∧
    Links (.jal16 off10) s 1 (BitVec.ofInt 64 (s.pc.toNat + 2 + off10.toInt)) 2 ∧
    Links (.jalr rt ra) s rt (s.reg ra) 4 ∧ GoesTo .rts s (s.reg 1)

/-! ## Bit fields and shifts -/

/-- The seven bit-field instructions: where `mb ≤ me` the bits from `mb` to `me`, both included, are inverted, cleared, set,
extracted with sign or zero extension, or replaced by the low bits of `Ra` or of the immediate; where `mb > me` the instruction
completes all the same and only its result is open (R230 to R237, D21; the open result is log 17). -/
def Obligations.BitFields : Prop :=
  ∀ (s : State) (rt ra : Reg) (imm : BitVec 5) (mb me : BitNo),
    let a (k : Nat) := (s.reg ra).getLsbD k
    let old (k : Nat) := (s.reg rt).getLsbD k
    let inside (k : Nat) : Bool := decide (mb.val ≤ k) && decide (k ≤ me.val)
    (mb ≤ me →
      WritesBits (.bfchg rt ra mb me) s rt (fun k => a k != inside k) 6 ∧
      WritesBits (.bfclr rt ra mb me) s rt (fun k => a k && !inside k) 6 ∧
      WritesBits (.bfset rt ra mb me) s rt (fun k => a k || inside k) 6 ∧
      WritesBits (.bfext rt ra mb me) s rt (fun k => a (min (mb.val + k) me.val)) 6 ∧
      WritesBits (.bfextu rt ra mb me) s rt (fun k => decide (mb.val + k ≤ me.val) && a (mb.val + k)) 6 ∧
      WritesBits (.bfins rt ra mb me) s rt (fun k => if inside k then a (k - mb.val) else old k) 6 ∧
      WritesBits (.bfinsi rt imm mb me) s rt (fun k => if inside k then imm.getLsbD (k - mb.val) else old k) 6) ∧
    (me < mb → ∀ i ∈ [Instr.bfchg rt ra mb me, .bfclr rt ra mb me, .bfset rt ra mb me, .bfext rt ra mb me,
      .bfextu rt ra mb me, .bfins rt ra mb me, .bfinsi rt imm mb me], ∃ v, Writes i s rt v 6)

/-- SHL, SHR and SHRU by the low six bits of `Rb`: the product with a power of two modulo 2^64, and the quotient rounded down,
signed or unsigned (R238 to R241, D4, D19). -/
def Obligations.Shifts : Prop :=
  ∀ (s : State) (rt ra rb : Reg),
    let amount := (s.reg rb).toNat % 64
    Writes (.shl rt ra rb) s rt (BitVec.ofNat 64 ((s.reg ra).toNat * 2 ^ amount)) 4 ∧
    Writes (.shr rt ra rb) s rt (BitVec.ofInt 64 ((s.reg ra).toInt / 2 ^ amount)) 4 ∧
    Writes (.shru rt ra rb) s rt (BitVec.ofNat 64 ((s.reg ra).toNat / 2 ^ amount)) 4

/-! ## Compares -/

/-- CMP: every word with opcode 42h and `func6` 02h is one, its compare register the low three bits of the slot, and it writes
all three flags of that register and nothing else (R254). -/
def Obligations.CompareRegister : Prop :=
  ∀ (s : State) (p : Encodings) (w : Nat) (pt : PReg) (ra rb : Reg),
    let a := s.reg ra
    let b := s.reg rb
    (field w 0 8 = 0x42 → field w 26 6 = 0x02 → decodeWord p w = .ok (.cmp (codeAt w 18) (regAt w 8) (regAt w 13))) ∧
    WritesFlags (.cmp pt ra rb) s pt
      { eq := decide (a.toNat = b.toNat), lt := decide (a.toInt < b.toInt), ltu := decide (a.toNat < b.toNat) } 4

/-- The immediate compares and BITI: sign-extended immediates; CMPIU on the upper 40 bits; CMPIL on the lower 24 bits and only
where `eq` is set; BITI zero, negative, odd (R97, R250, R251, R255 to R257, D11, D48). -/
def Obligations.CompareImmediate : Prop :=
  ∀ (s : State) (pt : PReg) (ra : Reg) (imm14 : BitVec 14) (imm24 : BitVec 24) (imm30 : BitVec 30) (imm40 : BitVec 40),
    let a := s.reg ra
    let against (b : Int) : CmpReg :=
      { eq := decide (a.toInt = b), lt := decide (a.toInt < b), ltu := decide (a.toNat < b % 2 ^ 64) }
    let masked := a &&& BitVec.ofInt 64 imm14.toInt
    WritesFlags (.cmpi pt ra imm14) s pt (against imm14.toInt) 4 ∧
    WritesFlags (.cmpi48 pt ra imm30) s pt (against imm30.toInt) 6 ∧
    WritesFlags (.cmpiu pt ra imm40) s pt
      { eq := decide (a.toNat / 2 ^ 24 = imm40.toNat), lt := decide (a.toInt / 2 ^ 24 < imm40.toInt),
        ltu := decide (a.toNat / 2 ^ 24 < imm40.toNat) } 8 ∧
    ((s.pred pt).eq = true → WritesFlags (.cmpil pt ra imm24) s pt
      { eq := decide (a.toNat % 2 ^ 24 = imm24.toNat), lt := decide (a.toNat % 2 ^ 24 < imm24.toNat),
        ltu := decide (a.toNat % 2 ^ 24 < imm24.toNat) } 6) ∧
    ((s.pred pt).eq = false → Advances (.cmpil pt ra imm24) s 6) ∧
    WritesFlags (.biti pt ra imm14) s pt
      { eq := decide (masked.toNat = 0), lt := decide (masked.toInt < 0), ltu := decide (masked.toNat % 2 = 1) } 4

/-- CHK and CHKU: opcode 59h with `func6` 0 or 1; only `eq` is written, set exactly where the value is at least the lower bound
and below the upper one, signed or unsigned (R252, R253). -/
def Obligations.BoundsChecks : Prop :=
  ∀ (s : State) (p : Encodings) (w : Nat) (pt : PReg) (ra rb rc : Reg),
    let a := s.reg ra
    let lo := s.reg rb
    let hi := s.reg rc
    (field w 0 8 = 0x59 → field w 26 6 = 0 →
      decodeWord p w = .ok (.chk (codeAt w 23) (regAt w 8) (regAt w 13) (regAt w 18))) ∧
    (field w 0 8 = 0x59 → field w 26 6 = 1 →
      decodeWord p w = .ok (.chku (codeAt w 23) (regAt w 8) (regAt w 13) (regAt w 18))) ∧
    WritesFlags (.chk pt ra rb rc) s pt
      { s.pred pt with eq := decide (lo.toInt ≤ a.toInt ∧ a.toInt < hi.toInt) } 4 ∧
    WritesFlags (.chku pt ra rb rc) s pt
      { s.pred pt with eq := decide (lo.toNat ≤ a.toNat ∧ a.toNat < hi.toNat) } 4

/-- CMPIU on the upper 40 bits and then CMPIL on the lower 24 bits of a constant leave the flags of the full 64-bit comparison
(R258, an inference the spec marks as its own; D48). -/
def Obligations.Compare64 : Prop :=
  ∀ (s : State) (pt : PReg) (ra : Reg) (c : Word),
    ∃ t u, exec (.cmpiu pt ra (c.extractLsb' 24 40)) s = .next t ∧ exec (.cmpil pt ra (c.setWidth 24)) t = .next u ∧
      u.pred pt = { eq := decide (s.reg ra = c), lt := decide ((s.reg ra).toInt < c.toInt),
                    ltu := decide ((s.reg ra).toNat < c.toNat) }

/-! ## Memory -/

/-- What the displacements and shifted immediates are as numbers: sign-extended; times four in the 16-bit loads and stores; at
bits 63:24 with zeros or ones below (R97, R104, R117, R185, D11, D14, D48). -/
def Obligations.ImmediateForms : Prop :=
  ∀ (disp4 : BitVec 4) (disp5 : BitVec 5) (disp12 : BitVec 12) (disp14 : BitVec 14) (disp27 : BitVec 27) (imm40 : BitVec 40),
    scaledDisp disp4 = BitVec.ofInt 64 (4 * disp4.toInt) ∧ scaledDisp disp5 = BitVec.ofInt 64 (4 * disp5.toInt) ∧
    sext disp12 = BitVec.ofInt 64 disp12.toInt ∧ sext disp14 = BitVec.ofInt 64 disp14.toInt ∧
    sext disp27 = BitVec.ofInt 64 disp27.toInt ∧ branchDisp disp14 = BitVec.ofInt 64 (2 * disp14.toInt) ∧
    (shiftedZeros imm40).toNat = imm40.toNat * 2 ^ 24 ∧ (shiftedOnes imm40).toNat = imm40.toNat * 2 ^ 24 + (2 ^ 24 - 1)

/-- Every load completes where its address is aligned, its bytes hold values and the environment answers no fault: width,
little-endian value, extension and target as the table says; LW to r0 completes with no access at all (R62, R64, R65, R70, R104,
R270 to R283, D8, D13 to D15, D38, D39). The address of each form is what `ImmediateForms` says of it. -/
def Obligations.LoadsComplete : Prop :=
  ∀ (s : State) (rt ra rb : Reg) (rt3 ra3 : Reg3) (disp4 : BitVec 4) (disp5 : BitVec 5) (disp14 : BitVec 14)
    (disp27 : BitVec 27),
    let near := s.reg ra + sext disp14
    let far := s.reg ra + sext disp27
    let indexed := s.reg ra + s.reg rb
    Loads (.lb rt ra disp14) s rt near 1 true 4 ∧ Loads (.lb48 rt ra disp27) s rt far 1 true 6 ∧
    Loads (.lbu rt ra disp14) s rt near 1 false 4 ∧ Loads (.lbu48 rt ra disp27) s rt far 1 false 6 ∧
    Loads (.lh rt ra disp14) s rt near 2 true 4 ∧ Loads (.lh48 rt ra disp27) s rt far 2 true 6 ∧
    Loads (.lhu rt ra disp14) s rt near 2 false 4 ∧ Loads (.lhu48 rt ra disp27) s rt far 2 false 6 ∧
    Loads (.lbx rt ra rb) s rt indexed 1 true 4 ∧ Loads (.lbux rt ra rb) s rt indexed 1 false 4 ∧
    Loads (.lhx rt ra rb) s rt indexed 2 true 4 ∧ Loads (.lhux rt ra rb) s rt indexed 2 false 4 ∧
    Loads (.lw rt ra disp14) s rt near 8 false 4 ∧ Loads (.lw48 rt ra disp27) s rt far 8 false 6 ∧
    Loads (.lw16 rt3 ra3 disp4) s (reg3 rt3) (s.reg (reg3 ra3) + scaledDisp disp4) 8 false 2 ∧
    Loads (.lwBp rt disp5) s rt (s.reg 2 + scaledDisp disp5) 8 false 2 ∧
    Loads (.lwSp rt disp5) s rt (s.reg 14 + scaledDisp disp5) 8 false 2 ∧
    Advances (.lw 0 ra disp14) s 4 ∧ Advances (.lw48 0 ra disp27) s 6 ∧ Advances (.lwBp 0 disp5) s 2 ∧
    Advances (.lwSp 0 disp5) s 2

/-- Every word store completes where its address is a multiple of eight and the environment answers no fault: the whole register
little-endian at the computed address, and no other byte (R62, R64, R71, R104, R270, R284 to R287, D8, D13 to D15). -/
def Obligations.StoresComplete : Prop :=
  ∀ (s : State) (rs ra : Reg) (rs3 ra3 : Reg3) (disp4 : BitVec 4) (disp5 : BitVec 5) (disp14 : BitVec 14) (disp27 : BitVec 27),
    Stores (.sw rs ra disp14) s (s.reg ra + sext disp14) (s.reg rs) 4 ∧
    Stores (.sw48 rs ra disp27) s (s.reg ra + sext disp27) (s.reg rs) 6 ∧
    Stores (.sw16 rs3 ra3 disp4) s (s.reg (reg3 ra3) + scaledDisp disp4) (s.reg (reg3 rs3)) 2 ∧
    Stores (.swBp rs disp5) s (s.reg 2 + scaledDisp disp5) (s.reg rs) 2 ∧
    Stores (.swSp rs disp5) s (s.reg 14 + scaledDisp disp5) (s.reg rs) 2

/-- Where a load or a store raises: a misaligned address first, with no access made, then the answer of the environment; a load
to r0 too, but for LW (R64, R69 to R71, R278, R344, R347, R350, D15, D22, D39, D46). -/
def Obligations.AccessesRaise : Prop :=
  ∀ (s : State) (rt ra rb : Reg) (rt3 ra3 : Reg3) (disp4 : BitVec 4) (disp5 : BitVec 5) (disp14 : BitVec 14)
    (disp27 : BitVec 27),
    let near := s.reg ra + sext disp14
    let far := s.reg ra + sext disp27
    let indexed := s.reg ra + s.reg rb
    let short := s.reg (reg3 ra3) + scaledDisp disp4
    (∀ f, s.memFault near 1 .load = some f →
      Raises (.lb rt ra disp14) s f.kind (some near) ∧ Raises (.lbu rt ra disp14) s f.kind (some near)) ∧
    (∀ f, s.memFault far 1 .load = some f →
      Raises (.lb48 rt ra disp27) s f.kind (some far) ∧ Raises (.lbu48 rt ra disp27) s f.kind (some far)) ∧
    (∀ f, s.memFault indexed 1 .load = some f →
      Raises (.lbx rt ra rb) s f.kind (some indexed) ∧ Raises (.lbux rt ra rb) s f.kind (some indexed)) ∧
    AccessRaises (.lh rt ra disp14) s near 2 .load ∧ AccessRaises (.lh48 rt ra disp27) s far 2 .load ∧
    AccessRaises (.lhu rt ra disp14) s near 2 .load ∧ AccessRaises (.lhu48 rt ra disp27) s far 2 .load ∧
    AccessRaises (.lhx rt ra rb) s indexed 2 .load ∧ AccessRaises (.lhux rt ra rb) s indexed 2 .load ∧
    (rt ≠ 0 → AccessRaises (.lw rt ra disp14) s near 8 .load ∧ AccessRaises (.lw48 rt ra disp27) s far 8 .load ∧
      AccessRaises (.lwBp rt disp5) s (s.reg 2 + scaledDisp disp5) 8 .load ∧
      AccessRaises (.lwSp rt disp5) s (s.reg 14 + scaledDisp disp5) 8 .load) ∧
    AccessRaises (.lw16 rt3 ra3 disp4) s short 8 .load ∧ AccessRaises (.sw16 rt3 ra3 disp4) s short 8 .store ∧
    AccessRaises (.sw rt ra disp14) s near 8 .store ∧ AccessRaises (.sw48 rt ra disp27) s far 8 .store ∧
    AccessRaises (.swBp rt disp5) s (s.reg 2 + scaledDisp disp5) 8 .store ∧
    AccessRaises (.swSp rt disp5) s (s.reg 14 + scaledDisp disp5) 8 .store

/-- A word stored is the word loaded, at the lowest and the highest address alike (R62, R70, R71, R277, R284, D8, D15). -/
def Obligations.StoreThenLoad : Prop :=
  ∀ (s : State) (rt rs ra : Reg) (disp : BitVec 14),
    let ea := s.reg ra + sext disp
    rt ≠ 0 → ea.toNat % 8 = 0 → s.memFault ea 8 .store = none → s.memFault ea 8 .load = none →
    ∃ t u, exec (.sw rs ra disp) s = .next t ∧ exec (.lw rt ra disp) t = .next u ∧ u.reg rt = s.reg rs

/-- CAS to another register than r14: the old word goes to the target; where it equals `Rb` the word of `Rc` is stored, and
where it does not memory is untouched (R300, D8, D41). -/
def Obligations.CompareAndSwap : Prop :=
  ∀ (s : State) (rt ra rb rc : Reg) (disp : BitVec 12) (v : Nat),
    let ea := s.reg ra + sext disp
    rt ≠ 14 → ea.toNat % 8 = 0 → s.mem.Holds ea 8 v → s.memFault ea 8 .load = none →
    (v ≠ (s.reg rb).toNat → Writes (.cas rt ra rb rc disp) s rt (BitVec.ofNat 64 v) 6) ∧
    (v = (s.reg rb).toNat → s.memFault ea 8 .store = none →
      ∃ t, exec (.cas rt ra rb rc disp) s = .next t ∧ RegWritten s t rt (BitVec.ofNat 64 v) ∧
        t.mem.Holds ea 8 (s.reg rc).toNat ∧ SameMemoryBut ea 8 s t ∧ t.pc = s.pc + 6 ∧ SamePredsBut [] s t ∧
        SameSystem s t)

/-- CAS raises: with r14 as target before any access; on a misaligned address; on the answer to its load; and, the values being
equal, on the answer to its store, with neither memory nor the target changed (R300, R346, R350, R351, D15, D28, D41, D46;
log 20). -/
def Obligations.CasRaises : Prop :=
  ∀ (s : State) (rt ra rb rc : Reg) (disp : BitVec 12),
    let ea := s.reg ra + sext disp
    Raises (.cas 14 ra rb rc disp) s .illegalInstruction none ∧
    (rt ≠ 14 → AccessRaises (.cas rt ra rb rc disp) s ea 8 .load) ∧
    (∀ f, rt ≠ 14 → ea.toNat % 8 = 0 → s.memFault ea 8 .load = none → s.mem.Holds ea 8 (s.reg rb).toNat →
      s.memFault ea 8 .store = some f → Raises (.cas rt ra rb rc disp) s f.kind (some ea))

/-! ## System -/

/-- MEMDB, MEMSB, SYNC, NOP under both its second bytes, and the all-zero parcel: the parcels are theirs and they only advance
the pc, in the model of one agent in program order (R72, R315 to R318, D26; log 29). -/
def Obligations.BarriersAndNops : Prop :=
  ∀ (s : State) (p : Encodings),
    decodeWord p 0x8233 = .ok .memdb ∧ decodeWord p 0x8333 = .ok .memsb ∧ decodeWord p 0x8033 = .ok .sync ∧
    decodeWord p 0xE133 = .ok .nopE1 ∧ decodeWord p 0xEA33 = .ok .nopEA ∧ decodeWord p 0x0000 = .ok (.addi16 0 0) ∧
    (∀ i ∈ [Instr.memdb, .memsb, .sync, .nopE1, .nopEA, .addi16 0 0], Advances i s 2)

/-- The cache commands only advance the pc; SEI sets the mask at once and cancels a pending CLI; CLI does nothing where the mask
is clear, and else takes a delay that the spec leaves open: the mask clears now for 0 and later for more (R80, R81, R310, R312,
R313, D29, D34, D42; the delay is log 15). -/
def Obligations.MaskAndCache : Prop :=
  ∀ (s : State) (ra : Reg),
    (s.km = true ∨ s.platform.privCache = false →
      ∀ i ∈ [Instr.cacheInvICache ra, .cacheInvILine ra, .cacheInvDCache ra, .cacheInvDLine ra], Advances i s 4) ∧
    (s.km = true → SetsSystem .sei s { s with im := true, cliPending := 0 } 2) ∧
    (s.km = true → s.im = false → Advances .cli s 2) ∧
    (s.km = true → s.im = true → ∃ d : Nat, SetsSystem .cli s { s with im := decide (d ≠ 0), cliPending := d } 2)

/-- MF in a mode that may run it: the register of the number goes to the target. TICK is a value not below the last one read
but for wrapping, and is remembered; PREGS packs the flags four bits apart; 61 reads the register that BIR names; EPC and VBA
are read where the platform gives them a number of their own (R32, R35 to R43, R322, D24, D31 to D33; logs 6, 11, 12). -/
def Obligations.MoveFromSpecial : Prop :=
  ∀ (s : State) (rt : Reg), (s.km = true ∨ s.platform.privMf = false) →
    let listed : List SprNo := [48, 49, 50, 51, 52, 53, 59, 60, 61]
    Writes (.mf rt 48) s rt s.platform.mid 6 ∧ Writes (.mf rt 49) s rt s.platform.feat 6 ∧
    (∃ moved : Nat, ∃ t, exec (.mf rt 50) s = .next t ∧ RegWritten s t rt (s.tick + BitVec.ofNat 64 moved) ∧
      t.pc = s.pc + 6 ∧ SamePredsBut [] s t ∧ SameMemory s t ∧
      SameSystem { s with tick := s.tick + BitVec.ofNat 64 moved } t) ∧
    Writes (.mf rt 51) s rt s.lc 6 ∧
    WritesBits (.mf rt 52) s rt
      (fun k => decide (k < 32) &&
        (let p := s.pred (Fin.ofNat 8 (k / 4))
         if k % 4 = 0 then p.eq else if k % 4 = 1 then p.lt else if k % 4 = 2 then p.ltu else false)) 6 ∧
    Writes (.mf rt 53) s rt s.asid 6 ∧ Writes (.mf rt 59) s rt s.exc 6 ∧
    (∀ n : SprNo, s.bir.toNat = n.val → n ≠ 61 → exec (.mf rt 61) s = exec (.mf rt n) s) ∧
    (∀ n : SprNo, n ∉ listed → s.platform.sprEpc = some n → Writes (.mf rt n) s rt s.epc 6) ∧
    (∀ n : SprNo, n ∉ listed → s.platform.sprEpc ≠ some n → s.platform.sprVba = some n → Writes (.mf rt n) s rt s.vba 6)

/-- MT in a mode that may run it: the register of the number takes the value of `Ra`. PREGS unpacks into all 24 flags; 61 writes
the register that BIR names; EPC and VBA are written where the platform gives them a number of their own (R32, R35 to R43, R323,
D24, D30 to D32; log 11). -/
def Obligations.MoveToSpecial : Prop :=
  ∀ (s : State) (ra : Reg), (s.km = true ∨ s.platform.privMt = false) →
    let listed : List SprNo := [48, 49, 50, 51, 52, 53, 59, 60, 61]
    let v := s.reg ra
    SetsSystem (.mt 51 ra) s { s with lc := v } 6 ∧
    (∃ t, exec (.mt 52 ra) s = .next t ∧
      (∀ p : PReg, t.pred p = ⟨v.getLsbD (4 * p.val), v.getLsbD (4 * p.val + 1), v.getLsbD (4 * p.val + 2)⟩) ∧
      t.pc = s.pc + 6 ∧ SameRegsBut [] s t ∧ SameMemory s t ∧ SameSystem s t) ∧
    SetsSystem (.mt 53 ra) s { s with asid := v } 6 ∧ SetsSystem (.mt 59 ra) s { s with exc := v } 6 ∧
    SetsSystem (.mt 60 ra) s { s with bir := v } 6 ∧
    (∀ n : SprNo, s.bir.toNat = n.val → n ≠ 61 → exec (.mt 61 ra) s = exec (.mt n ra) s) ∧
    (∀ n : SprNo, n ∉ listed → s.platform.sprEpc = some n → SetsSystem (.mt n ra) s { s with epc := v } 6) ∧
    (∀ n : SprNo, n ∉ listed → s.platform.sprEpc ≠ some n → s.platform.sprVba = some n →
      SetsSystem (.mt n ra) s { s with vba := v } 6)

/-- Where the system instructions raise: a privileged one in user mode, before anything else it does; MF and MT at a number that
is unlisted, read-only or write-only, or through the breakout register where BIR names none (R44, R312, R313, R319 to R323,
R343, R346, R350, D28, D34; logs 19, 24). -/
def Obligations.SystemRaises : Prop :=
  ∀ (s : State) (rt ra : Reg),
    let listed : List SprNo := [48, 49, 50, 51, 52, 53, 59, 60, 61]
    let mayMf := s.km = true ∨ s.platform.privMf = false
    let mayMt := s.km = true ∨ s.platform.privMt = false
    (s.km = false → ∀ i ∈ [Instr.cli, .sei, .rti, .rte, .rtd], Raises i s .privilegeViolation none) ∧
    (s.km = false → s.platform.privCache = true →
      ∀ i ∈ [Instr.cacheInvICache ra, .cacheInvILine ra, .cacheInvDCache ra, .cacheInvDLine ra],
        Raises i s .privilegeViolation none) ∧
    (∀ n, s.km = false → s.platform.privMf = true → Raises (.mf rt n) s .privilegeViolation none) ∧
    (∀ n, s.km = false → s.platform.privMt = true → Raises (.mt n ra) s .privilegeViolation none) ∧
    (∀ n, n ∉ listed → s.platform.sprEpc ≠ some n → s.platform.sprVba ≠ some n →
      (mayMf → Raises (.mf rt n) s .illegalInstruction none) ∧ (mayMt → Raises (.mt n ra) s .illegalInstruction none)) ∧
    (mayMf → Raises (.mf rt 60) s .illegalInstruction none) ∧
    (mayMt → ∀ n ∈ ([48, 49, 50] : List SprNo), Raises (.mt n ra) s .illegalInstruction none) ∧
    (s.bir = 61 ∨ 2048 ≤ s.bir.toNat →
      (mayMf → Raises (.mf rt 61) s .illegalInstruction none) ∧ (mayMt → Raises (.mt 61 ra) s .illegalInstruction none))

/-- The map-only names are refused by name, with no event of the machine (R128, R324, R325, D37; log 22). -/
def Obligations.MapOnlyRefused : Prop :=
  ∀ (s : State) (i : Instr) (name : String),
    (i, name) ∈ [(Instr.mrk1, "MRK1"), (.mrk2, "MRK2"), (.mrk3, "MRK3"), (.mrk4, "MRK4"), (.lc, "LC"), (.lc48, "LC"),
      (.lcu, "LCU"), (.lcu48, "LCU"), (.lvwar, "LVWAR"), (.sb, "SB"), (.sb48, "SB"), (.sc, "SC"), (.sc48, "SC"),
      (.sh, "SH"), (.sh48, "SH"), (.swcr, "SWCR"), (.swcr48, "SWCR"), (.biti48, "BITI"), (.jsri, "JSRI"), (.lws, "LWS"),
      (.lcl, "LCL"), (.lwar, "LWAR"), (.lvb, "LVB"), (.lvc, "LVC"), (.lvh, "LVH"), (.lvw, "LVW"), (.llax, "LLAX")] →
    exec i s = .refused (.unsupported name)
end

