-- ==== Sys2Proof/Laws/Decode.lean ====
section
/-! SUPPORT. What the container's byte decodes to; proofs cite these instead of unfolding the table of 32-bit bytes. -/

namespace Sys2Proof

/-- The container's byte is one of the 32-bit bytes. -/
theorem Encodings.containerFree_range {p : Encodings} (h : p.containerFree = true) :
    0x43 ≤ p.opcL24.toNat ∧ p.opcL24.toNat ≤ 0x7F := by
  simp only [containerFree, blank32, Bool.or_eq_true, Bool.and_eq_true, decide_eq_true_eq] at h
  omega

/-- A 32-bit byte that the table leaves blank is the container's or reserved. -/
theorem decode32_blank (p : Encodings) {w : Nat} (h : blank32 (field w 0 8) = true) :
    decode32 p w =
      if field w 0 8 = p.opcL24.toNat then
        if p.provisional then decodeL24 w else .error (.provisionalOff (field w 0 8))
      else .error (.reservedOpcode (field w 0 8)) := by
  unfold decode32
  split <;> first | rfl | (simp_all [blank32])

/-- A word whose opcode byte is the container's is decoded by the container, or refused while the switch is off. -/
theorem decodeWord_container {p : Encodings} {w : Nat} (h : p.containerFree = true) (hw : field w 0 8 = p.opcL24.toNat) :
    decodeWord p w = if p.provisional then decodeL24 w else .error (.provisionalOff p.opcL24.toNat) := by
  have hr := p.containerFree_range h
  have h6 : field w 6 2 = 1 := by simp only [field] at *; omega
  have hb : blank32 (field w 0 8) = true := by rw [hw]; exact h
  simp only [decodeWord, h6, decode32_blank p hb, hw, if_true]

end Sys2Proof
end

