-- ==== Sys2Proof/Laws/Memory.lean ====
section
/-! SUPPORT. Memory: what a read finds after a write, that every operation keeps the canonical form, and what a store of several
bytes leaves. -/

namespace Sys2Proof.Machine

/-! ## One byte -/

@[simp] theorem Memory.read_nil (a : Nat) : Memory.read [] a = none := rfl

/-- A byte reads what was written to it. -/
@[simp] theorem Memory.read_write_same (m : Memory) (a : Nat) (b : Byte) : (Memory.write m a b).read a = some b := by
  induction m with
  | nil => simp [Memory.write, Memory.read]
  | cons c m ih =>
    obtain ⟨k, d⟩ := c
    by_cases h1 : a < k
    · simp [Memory.write, Memory.read, h1]
    · by_cases h2 : a = k
      · simp [Memory.write, Memory.read, h2]
      · simp [Memory.write, Memory.read, h1, h2, Ne.symm h2, ih]

/-- Another byte reads as before. -/
theorem Memory.read_write_other (m : Memory) {a x : Nat} (b : Byte) (h : x ≠ a) :
    (Memory.write m a b).read x = Memory.read m x := by
  induction m with
  | nil => simp [Memory.write, Memory.read, Ne.symm h, unlistedByte]
  | cons c m ih =>
    obtain ⟨k, d⟩ := c
    by_cases h1 : a < k
    · simp [Memory.write, Memory.read, h1, Ne.symm h]
    · by_cases h2 : a = k
      · subst h2; simp [Memory.write, Memory.read, Ne.symm h]
      · simp [Memory.write, Memory.read, h1, h2, ih]

/-- A write above a bound leaves the memory above it. -/
theorem Memory.above_write (m : Memory) {k a : Nat} (b : Byte) (h : k < a) (hm : Memory.above k m = true) :
    Memory.above k (Memory.write m a b) = true := by
  cases m with
  | nil => simpa [Memory.write, Memory.above] using h
  | cons c m =>
    obtain ⟨j, d⟩ := c
    simp only [Memory.above, decide_eq_true_eq] at hm
    by_cases h1 : a < j
    · simpa [Memory.write, Memory.above, h1] using h
    · by_cases h2 : a = j
      · simpa [Memory.write, Memory.above, h2] using hm
      · simpa [Memory.write, Memory.above, h1, h2] using hm

/-- The canonical form of a memory with a first entry. -/
theorem Memory.wf_cons (k : Nat) (b : Byte) (m : Memory) :
    Memory.wf ((k, b) :: m) = true ↔ k < 2 ^ 64 ∧ Memory.above k m = true ∧ Memory.wf m = true := by
  rw [Memory.wf, Bool.and_eq_true, Bool.and_eq_true, decide_eq_true_eq, and_assoc]

/-- A write inside the address space keeps the canonical form. -/
theorem Memory.wf_write (m : Memory) {a : Nat} (b : Byte) (ha : a < 2 ^ 64) (hm : m.wf = true) :
    (Memory.write m a b).wf = true := by
  induction m with
  | nil => exact (Memory.wf_cons a b []).2 ⟨ha, rfl, rfl⟩
  | cons c m ih =>
    obtain ⟨k, d⟩ := c
    obtain ⟨hk, hab, hw⟩ := (Memory.wf_cons k d m).1 hm
    rw [Memory.write]
    split
    · next h1 => exact (Memory.wf_cons a b _).2 ⟨ha, decide_eq_true h1, hm⟩
    · split
      · next h2 => subst h2; exact (Memory.wf_cons _ b m).2 ⟨hk, hab, hw⟩
      · next h1 h2 => exact (Memory.wf_cons k d _).2 ⟨hk, Memory.above_write m b (by omega) hab, ih hw⟩

/-! ## Several bytes -/

/-- A store keeps the canonical form. -/
theorem Memory.wf_store (n : Nat) : ∀ (m : Memory) (a : Word) (v : Nat), m.wf = true → (Memory.store m a n v).wf = true := by
  induction n with
  | zero => intro m a v h; exact h
  | succ n ih => intro m a v h; exact ih _ _ _ (Memory.wf_write m _ a.isLt h)

/-- Placing bytes keeps the canonical form. -/
theorem Memory.wf_place (bs : List Byte) : ∀ (m : Memory) (a : Word), m.wf = true → (Memory.place m a bs).wf = true := by
  induction bs with
  | nil => intro m a h; exact h
  | cons b bs ih => intro m a h; exact ih _ _ (Memory.wf_write m _ a.isLt h)

/-- Addresses `a` and `a + k` differ for `0 < k < 2^64`. -/
theorem address_ne {a : Word} {k : Nat} (h0 : 0 < k) (h : k < 2 ^ 64) : a ≠ a + BitVec.ofNat 64 k := by
  intro e
  have e' := congrArg BitVec.toNat e
  simp only [BitVec.toNat_add, BitVec.toNat_ofNat, Nat.mod_eq_of_lt h] at e'
  have := a.isLt
  omega

/-- The next address and `k` more are `k + 1` from the first. -/
theorem address_succ (a : Word) (k : Nat) : a + 1 + BitVec.ofNat 64 k = a + BitVec.ofNat 64 (k + 1) := by
  rw [BitVec.add_assoc]
  congr 1
  apply BitVec.eq_of_toNat_eq
  simp only [BitVec.toNat_add, BitVec.toNat_ofNat]
  change (1 + k % 2 ^ 64) % 2 ^ 64 = _
  omega

/-- A store leaves every byte outside its own as it was. -/
theorem Memory.read_store_outside (n : Nat) : ∀ (m : Memory) (a : Word) (v x : Nat), Outside x a n →
    (Memory.store m a n v).read x = Memory.read m x := by
  induction n with
  | zero => intro m a v x _; rfl
  | succ n ih =>
    intro m a v x h
    have h0 : x ≠ a.toNat := by simpa using h 0 (Nat.succ_pos n)
    have hs : Outside x (a + 1) n := fun k hk => by
      rw [address_succ]; exact h (k + 1) (Nat.succ_lt_succ hk)
    rw [Memory.store, ih _ _ _ _ hs, Memory.read_write_other _ _ h0]

/-- After a store byte `k` of the stored number stands at `a + k`. -/
theorem Memory.read_store_inside (n : Nat) (hn : n < 2 ^ 64) : ∀ (m : Memory) (a : Word) (v k : Nat), k < n →
    (Memory.store m a n v).read (a + BitVec.ofNat 64 k).toNat = some (byteOf v k) := by
  induction n with
  | zero => intro m a v k h; omega
  | succ n ih =>
    intro m a v k h
    cases k with
    | zero =>
      have hout : Outside a.toNat (a + 1) n := fun j hj e => by
        rw [address_succ] at e
        exact address_ne (Nat.succ_pos j) (by omega) (BitVec.eq_of_toNat_eq e)
      have e : a + BitVec.ofNat 64 0 = a := BitVec.add_zero a
      rw [Memory.store, e, Memory.read_store_outside n _ _ _ _ hout, Memory.read_write_same]
      simp [byteOf]
    | succ k =>
      rw [Memory.store, ← address_succ, ih (by omega) _ _ _ _ (by omega)]
      simp [byteOf, Nat.pow_succ, Nat.div_div_eq_div_mul, Nat.mul_comm]

/-- A store of `n` bytes leaves them holding the number. -/
theorem Memory.holds_store (m : Memory) (a : Word) {n v : Nat} (hn : n < 2 ^ 64) (hv : v < 256 ^ n) :
    (Memory.store m a n v).Holds a n v := ⟨hv, fun k hk => Memory.read_store_inside n hn m a v k hk⟩

/-- Bytes that hold a number load as that number. -/
theorem Memory.load_of_holds (n : Nat) : ∀ (m : Memory) (a : Word) (v : Nat), Memory.Holds m a n v → m.load a n = some v := by
  induction n with
  | zero => intro m a v h; have := h.1; simp [Memory.load]; omega
  | succ n ih =>
    intro m a v h
    have h0 : m.read a.toNat = some (byteOf v 0) := by simpa using h.2 0 (Nat.succ_pos n)
    have hs : Memory.Holds m (a + 1) n (v / 256) := by
      refine ⟨?_, fun k hk => ?_⟩
      · have := h.1; rw [Nat.pow_succ] at this; omega
      · rw [address_succ, h.2 (k + 1) (Nat.succ_lt_succ hk)]
        simp [byteOf, Nat.pow_succ, Nat.div_div_eq_div_mul, Nat.mul_comm]
    rw [Memory.load, h0, ih m (a + 1) (v / 256) hs]
    simp [byteOf]
    omega

/-- The memory of the machine after reset is in canonical form. -/
theorem Memory.wf_reset : State.reset.mem.wf = true := rfl

end Sys2Proof.Machine
end

