-- ==== Sys2Proof/Laws/State.lean ====
section
/-! SUPPORT. One lemma for each field and each update of State, and for what the register accessors read after an update, so that
no proof unfolds a record update. -/

namespace Sys2Proof.Machine

/-! ### `State.setReg` -/

@[simp] theorem State.setReg_pc (s : State) (r : Reg) (v : Word) : (s.setReg r v).pc = s.pc := by unfold State.setReg; split <;> rfl
@[simp] theorem State.setReg_preds (s : State) (r : Reg) (v : Word) : (s.setReg r v).preds = s.preds := by unfold State.setReg; split <;> rfl
@[simp] theorem State.setReg_im (s : State) (r : Reg) (v : Word) : (s.setReg r v).im = s.im := by unfold State.setReg; split <;> rfl
@[simp] theorem State.setReg_km (s : State) (r : Reg) (v : Word) : (s.setReg r v).km = s.km := by unfold State.setReg; split <;> rfl
@[simp] theorem State.setReg_pim (s : State) (r : Reg) (v : Word) : (s.setReg r v).pim = s.pim := by unfold State.setReg; split <;> rfl
@[simp] theorem State.setReg_pkm (s : State) (r : Reg) (v : Word) : (s.setReg r v).pkm = s.pkm := by unfold State.setReg; split <;> rfl
@[simp] theorem State.setReg_cliPending (s : State) (r : Reg) (v : Word) : (s.setReg r v).cliPending = s.cliPending := by unfold State.setReg; split <;> rfl
@[simp] theorem State.setReg_epc (s : State) (r : Reg) (v : Word) : (s.setReg r v).epc = s.epc := by unfold State.setReg; split <;> rfl
@[simp] theorem State.setReg_vba (s : State) (r : Reg) (v : Word) : (s.setReg r v).vba = s.vba := by unfold State.setReg; split <;> rfl
@[simp] theorem State.setReg_exc (s : State) (r : Reg) (v : Word) : (s.setReg r v).exc = s.exc := by unfold State.setReg; split <;> rfl
@[simp] theorem State.setReg_lc (s : State) (r : Reg) (v : Word) : (s.setReg r v).lc = s.lc := by unfold State.setReg; split <;> rfl
@[simp] theorem State.setReg_asid (s : State) (r : Reg) (v : Word) : (s.setReg r v).asid = s.asid := by unfold State.setReg; split <;> rfl
@[simp] theorem State.setReg_bir (s : State) (r : Reg) (v : Word) : (s.setReg r v).bir = s.bir := by unfold State.setReg; split <;> rfl
@[simp] theorem State.setReg_tick (s : State) (r : Reg) (v : Word) : (s.setReg r v).tick = s.tick := by unfold State.setReg; split <;> rfl
@[simp] theorem State.setReg_mem (s : State) (r : Reg) (v : Word) : (s.setReg r v).mem = s.mem := by unfold State.setReg; split <;> rfl
@[simp] theorem State.setReg_inputs (s : State) (r : Reg) (v : Word) : (s.setReg r v).inputs = s.inputs := by unfold State.setReg; split <;> rfl
@[simp] theorem State.setReg_platform (s : State) (r : Reg) (v : Word) : (s.setReg r v).platform = s.platform := by unfold State.setReg; split <;> rfl
@[simp] theorem State.setReg_draws (s : State) (r : Reg) (v : Word) : (s.setReg r v).draws = s.draws := by unfold State.setReg; split <;> rfl

/-! ### `State.setPred` -/

@[simp] theorem State.setPred_regs (s : State) (p : PReg) (v : CmpReg) : (s.setPred p v).regs = s.regs := rfl
@[simp] theorem State.setPred_pc (s : State) (p : PReg) (v : CmpReg) : (s.setPred p v).pc = s.pc := rfl
@[simp] theorem State.setPred_preds (s : State) (p : PReg) (v : CmpReg) : (s.setPred p v).preds = s.preds.set p v := rfl
@[simp] theorem State.setPred_im (s : State) (p : PReg) (v : CmpReg) : (s.setPred p v).im = s.im := rfl
@[simp] theorem State.setPred_km (s : State) (p : PReg) (v : CmpReg) : (s.setPred p v).km = s.km := rfl
@[simp] theorem State.setPred_pim (s : State) (p : PReg) (v : CmpReg) : (s.setPred p v).pim = s.pim := rfl
@[simp] theorem State.setPred_pkm (s : State) (p : PReg) (v : CmpReg) : (s.setPred p v).pkm = s.pkm := rfl
@[simp] theorem State.setPred_cliPending (s : State) (p : PReg) (v : CmpReg) : (s.setPred p v).cliPending = s.cliPending := rfl
@[simp] theorem State.setPred_epc (s : State) (p : PReg) (v : CmpReg) : (s.setPred p v).epc = s.epc := rfl
@[simp] theorem State.setPred_vba (s : State) (p : PReg) (v : CmpReg) : (s.setPred p v).vba = s.vba := rfl
@[simp] theorem State.setPred_exc (s : State) (p : PReg) (v : CmpReg) : (s.setPred p v).exc = s.exc := rfl
@[simp] theorem State.setPred_lc (s : State) (p : PReg) (v : CmpReg) : (s.setPred p v).lc = s.lc := rfl
@[simp] theorem State.setPred_asid (s : State) (p : PReg) (v : CmpReg) : (s.setPred p v).asid = s.asid := rfl
@[simp] theorem State.setPred_bir (s : State) (p : PReg) (v : CmpReg) : (s.setPred p v).bir = s.bir := rfl
@[simp] theorem State.setPred_tick (s : State) (p : PReg) (v : CmpReg) : (s.setPred p v).tick = s.tick := rfl
@[simp] theorem State.setPred_mem (s : State) (p : PReg) (v : CmpReg) : (s.setPred p v).mem = s.mem := rfl
@[simp] theorem State.setPred_inputs (s : State) (p : PReg) (v : CmpReg) : (s.setPred p v).inputs = s.inputs := rfl
@[simp] theorem State.setPred_platform (s : State) (p : PReg) (v : CmpReg) : (s.setPred p v).platform = s.platform := rfl
@[simp] theorem State.setPred_draws (s : State) (p : PReg) (v : CmpReg) : (s.setPred p v).draws = s.draws := rfl

/-! ### `State.jump` -/

@[simp] theorem State.jump_regs (s : State) (t : Word) : (s.jump t).regs = s.regs := rfl
@[simp] theorem State.jump_pc (s : State) (t : Word) : (s.jump t).pc = t := rfl
@[simp] theorem State.jump_preds (s : State) (t : Word) : (s.jump t).preds = s.preds := rfl
@[simp] theorem State.jump_im (s : State) (t : Word) : (s.jump t).im = s.im := rfl
@[simp] theorem State.jump_km (s : State) (t : Word) : (s.jump t).km = s.km := rfl
@[simp] theorem State.jump_pim (s : State) (t : Word) : (s.jump t).pim = s.pim := rfl
@[simp] theorem State.jump_pkm (s : State) (t : Word) : (s.jump t).pkm = s.pkm := rfl
@[simp] theorem State.jump_cliPending (s : State) (t : Word) : (s.jump t).cliPending = s.cliPending := rfl
@[simp] theorem State.jump_epc (s : State) (t : Word) : (s.jump t).epc = s.epc := rfl
@[simp] theorem State.jump_vba (s : State) (t : Word) : (s.jump t).vba = s.vba := rfl
@[simp] theorem State.jump_exc (s : State) (t : Word) : (s.jump t).exc = s.exc := rfl
@[simp] theorem State.jump_lc (s : State) (t : Word) : (s.jump t).lc = s.lc := rfl
@[simp] theorem State.jump_asid (s : State) (t : Word) : (s.jump t).asid = s.asid := rfl
@[simp] theorem State.jump_bir (s : State) (t : Word) : (s.jump t).bir = s.bir := rfl
@[simp] theorem State.jump_tick (s : State) (t : Word) : (s.jump t).tick = s.tick := rfl
@[simp] theorem State.jump_mem (s : State) (t : Word) : (s.jump t).mem = s.mem := rfl
@[simp] theorem State.jump_inputs (s : State) (t : Word) : (s.jump t).inputs = s.inputs := rfl
@[simp] theorem State.jump_platform (s : State) (t : Word) : (s.jump t).platform = s.platform := rfl
@[simp] theorem State.jump_draws (s : State) (t : Word) : (s.jump t).draws = s.draws := rfl

/-! ### `State.advance` -/

@[simp] theorem State.advance_regs (s : State) (len : Nat) : (s.advance len).regs = s.regs := rfl
@[simp] theorem State.advance_pc (s : State) (len : Nat) : (s.advance len).pc = s.pc + BitVec.ofNat 64 len := rfl
@[simp] theorem State.advance_preds (s : State) (len : Nat) : (s.advance len).preds = s.preds := rfl
@[simp] theorem State.advance_im (s : State) (len : Nat) : (s.advance len).im = s.im := rfl
@[simp] theorem State.advance_km (s : State) (len : Nat) : (s.advance len).km = s.km := rfl
@[simp] theorem State.advance_pim (s : State) (len : Nat) : (s.advance len).pim = s.pim := rfl
@[simp] theorem State.advance_pkm (s : State) (len : Nat) : (s.advance len).pkm = s.pkm := rfl
@[simp] theorem State.advance_cliPending (s : State) (len : Nat) : (s.advance len).cliPending = s.cliPending := rfl
@[simp] theorem State.advance_epc (s : State) (len : Nat) : (s.advance len).epc = s.epc := rfl
@[simp] theorem State.advance_vba (s : State) (len : Nat) : (s.advance len).vba = s.vba := rfl
@[simp] theorem State.advance_exc (s : State) (len : Nat) : (s.advance len).exc = s.exc := rfl
@[simp] theorem State.advance_lc (s : State) (len : Nat) : (s.advance len).lc = s.lc := rfl
@[simp] theorem State.advance_asid (s : State) (len : Nat) : (s.advance len).asid = s.asid := rfl
@[simp] theorem State.advance_bir (s : State) (len : Nat) : (s.advance len).bir = s.bir := rfl
@[simp] theorem State.advance_tick (s : State) (len : Nat) : (s.advance len).tick = s.tick := rfl
@[simp] theorem State.advance_mem (s : State) (len : Nat) : (s.advance len).mem = s.mem := rfl
@[simp] theorem State.advance_inputs (s : State) (len : Nat) : (s.advance len).inputs = s.inputs := rfl
@[simp] theorem State.advance_platform (s : State) (len : Nat) : (s.advance len).platform = s.platform := rfl
@[simp] theorem State.advance_draws (s : State) (len : Nat) : (s.advance len).draws = s.draws := rfl

/-! ### `State.trapEnter` -/

@[simp] theorem State.trapEnter_regs (s : State) (ret : Word) (vec : BitVec 9) (code : Option Word) : (s.trapEnter ret vec code).regs = s.regs := rfl
@[simp] theorem State.trapEnter_pc (s : State) (ret : Word) (vec : BitVec 9) (code : Option Word) : (s.trapEnter ret vec code).pc = s.vectorAddress vec := rfl
@[simp] theorem State.trapEnter_preds (s : State) (ret : Word) (vec : BitVec 9) (code : Option Word) : (s.trapEnter ret vec code).preds = s.preds := rfl
@[simp] theorem State.trapEnter_im (s : State) (ret : Word) (vec : BitVec 9) (code : Option Word) : (s.trapEnter ret vec code).im = true := rfl
@[simp] theorem State.trapEnter_km (s : State) (ret : Word) (vec : BitVec 9) (code : Option Word) : (s.trapEnter ret vec code).km = true := rfl
@[simp] theorem State.trapEnter_pim (s : State) (ret : Word) (vec : BitVec 9) (code : Option Word) : (s.trapEnter ret vec code).pim = s.im := rfl
@[simp] theorem State.trapEnter_pkm (s : State) (ret : Word) (vec : BitVec 9) (code : Option Word) : (s.trapEnter ret vec code).pkm = s.km := rfl
@[simp] theorem State.trapEnter_cliPending (s : State) (ret : Word) (vec : BitVec 9) (code : Option Word) : (s.trapEnter ret vec code).cliPending = 0 := rfl
@[simp] theorem State.trapEnter_epc (s : State) (ret : Word) (vec : BitVec 9) (code : Option Word) : (s.trapEnter ret vec code).epc = ret := rfl
@[simp] theorem State.trapEnter_vba (s : State) (ret : Word) (vec : BitVec 9) (code : Option Word) : (s.trapEnter ret vec code).vba = s.vba := rfl
@[simp] theorem State.trapEnter_exc (s : State) (ret : Word) (vec : BitVec 9) (code : Option Word) : (s.trapEnter ret vec code).exc = code.getD s.exc := rfl
@[simp] theorem State.trapEnter_lc (s : State) (ret : Word) (vec : BitVec 9) (code : Option Word) : (s.trapEnter ret vec code).lc = s.lc := rfl
@[simp] theorem State.trapEnter_asid (s : State) (ret : Word) (vec : BitVec 9) (code : Option Word) : (s.trapEnter ret vec code).asid = s.asid := rfl
@[simp] theorem State.trapEnter_bir (s : State) (ret : Word) (vec : BitVec 9) (code : Option Word) : (s.trapEnter ret vec code).bir = s.bir := rfl
@[simp] theorem State.trapEnter_tick (s : State) (ret : Word) (vec : BitVec 9) (code : Option Word) : (s.trapEnter ret vec code).tick = s.tick := rfl
@[simp] theorem State.trapEnter_mem (s : State) (ret : Word) (vec : BitVec 9) (code : Option Word) : (s.trapEnter ret vec code).mem = s.mem := rfl
@[simp] theorem State.trapEnter_inputs (s : State) (ret : Word) (vec : BitVec 9) (code : Option Word) : (s.trapEnter ret vec code).inputs = s.inputs := rfl
@[simp] theorem State.trapEnter_platform (s : State) (ret : Word) (vec : BitVec 9) (code : Option Word) : (s.trapEnter ret vec code).platform = s.platform := rfl
@[simp] theorem State.trapEnter_draws (s : State) (ret : Word) (vec : BitVec 9) (code : Option Word) : (s.trapEnter ret vec code).draws = s.draws := rfl

/-! ### `State.trapReturn` -/

@[simp] theorem State.trapReturn_regs (s : State) : (s.trapReturn).regs = s.regs := rfl
@[simp] theorem State.trapReturn_pc (s : State) : (s.trapReturn).pc = s.epc := rfl
@[simp] theorem State.trapReturn_preds (s : State) : (s.trapReturn).preds = s.preds := rfl
@[simp] theorem State.trapReturn_im (s : State) : (s.trapReturn).im = s.pim := rfl
@[simp] theorem State.trapReturn_km (s : State) : (s.trapReturn).km = s.pkm := rfl
@[simp] theorem State.trapReturn_pim (s : State) : (s.trapReturn).pim = s.pim := rfl
@[simp] theorem State.trapReturn_pkm (s : State) : (s.trapReturn).pkm = s.pkm := rfl
@[simp] theorem State.trapReturn_cliPending (s : State) : (s.trapReturn).cliPending = 0 := rfl
@[simp] theorem State.trapReturn_epc (s : State) : (s.trapReturn).epc = s.epc := rfl
@[simp] theorem State.trapReturn_vba (s : State) : (s.trapReturn).vba = s.vba := rfl
@[simp] theorem State.trapReturn_exc (s : State) : (s.trapReturn).exc = s.exc := rfl
@[simp] theorem State.trapReturn_lc (s : State) : (s.trapReturn).lc = s.lc := rfl
@[simp] theorem State.trapReturn_asid (s : State) : (s.trapReturn).asid = s.asid := rfl
@[simp] theorem State.trapReturn_bir (s : State) : (s.trapReturn).bir = s.bir := rfl
@[simp] theorem State.trapReturn_tick (s : State) : (s.trapReturn).tick = s.tick := rfl
@[simp] theorem State.trapReturn_mem (s : State) : (s.trapReturn).mem = s.mem := rfl
@[simp] theorem State.trapReturn_inputs (s : State) : (s.trapReturn).inputs = s.inputs := rfl
@[simp] theorem State.trapReturn_platform (s : State) : (s.trapReturn).platform = s.platform := rfl
@[simp] theorem State.trapReturn_draws (s : State) : (s.trapReturn).draws = s.draws := rfl

/-! ### `State.endStep` -/

@[simp] theorem State.endStep_regs (s : State) : (s.endStep).regs = s.regs := rfl
@[simp] theorem State.endStep_pc (s : State) : (s.endStep).pc = s.pc := rfl
@[simp] theorem State.endStep_preds (s : State) : (s.endStep).preds = s.preds := rfl
@[simp] theorem State.endStep_im (s : State) : (s.endStep).im = s.im := rfl
@[simp] theorem State.endStep_km (s : State) : (s.endStep).km = s.km := rfl
@[simp] theorem State.endStep_pim (s : State) : (s.endStep).pim = s.pim := rfl
@[simp] theorem State.endStep_pkm (s : State) : (s.endStep).pkm = s.pkm := rfl
@[simp] theorem State.endStep_cliPending (s : State) : (s.endStep).cliPending = s.cliPending := rfl
@[simp] theorem State.endStep_epc (s : State) : (s.endStep).epc = s.epc := rfl
@[simp] theorem State.endStep_vba (s : State) : (s.endStep).vba = s.vba := rfl
@[simp] theorem State.endStep_exc (s : State) : (s.endStep).exc = s.exc := rfl
@[simp] theorem State.endStep_lc (s : State) : (s.endStep).lc = s.lc := rfl
@[simp] theorem State.endStep_asid (s : State) : (s.endStep).asid = s.asid := rfl
@[simp] theorem State.endStep_bir (s : State) : (s.endStep).bir = s.bir := rfl
@[simp] theorem State.endStep_tick (s : State) : (s.endStep).tick = s.tick := rfl
@[simp] theorem State.endStep_mem (s : State) : (s.endStep).mem = s.mem := rfl
@[simp] theorem State.endStep_inputs (s : State) : (s.endStep).inputs = s.inputs.tail := rfl
@[simp] theorem State.endStep_platform (s : State) : (s.endStep).platform = s.platform := rfl
@[simp] theorem State.endStep_draws (s : State) : (s.endStep).draws = s.draws + 1 := rfl

/-! ### `State.countdown` -/

@[simp] theorem State.countdown_regs (s : State) : (s.countdown).regs = s.regs := by unfold State.countdown; split <;> simp_all
@[simp] theorem State.countdown_pc (s : State) : (s.countdown).pc = s.pc := by unfold State.countdown; split <;> simp_all
@[simp] theorem State.countdown_preds (s : State) : (s.countdown).preds = s.preds := by unfold State.countdown; split <;> simp_all
@[simp] theorem State.countdown_im (s : State) : (s.countdown).im = (s.im && s.cliPending != 1) := by unfold State.countdown; split <;> simp_all
@[simp] theorem State.countdown_km (s : State) : (s.countdown).km = s.km := by unfold State.countdown; split <;> simp_all
@[simp] theorem State.countdown_pim (s : State) : (s.countdown).pim = s.pim := by unfold State.countdown; split <;> simp_all
@[simp] theorem State.countdown_pkm (s : State) : (s.countdown).pkm = s.pkm := by unfold State.countdown; split <;> simp_all
@[simp] theorem State.countdown_cliPending (s : State) : (s.countdown).cliPending = s.cliPending - 1 := by unfold State.countdown; split <;> simp_all
@[simp] theorem State.countdown_epc (s : State) : (s.countdown).epc = s.epc := by unfold State.countdown; split <;> simp_all
@[simp] theorem State.countdown_vba (s : State) : (s.countdown).vba = s.vba := by unfold State.countdown; split <;> simp_all
@[simp] theorem State.countdown_exc (s : State) : (s.countdown).exc = s.exc := by unfold State.countdown; split <;> simp_all
@[simp] theorem State.countdown_lc (s : State) : (s.countdown).lc = s.lc := by unfold State.countdown; split <;> simp_all
@[simp] theorem State.countdown_asid (s : State) : (s.countdown).asid = s.asid := by unfold State.countdown; split <;> simp_all
@[simp] theorem State.countdown_bir (s : State) : (s.countdown).bir = s.bir := by unfold State.countdown; split <;> simp_all
@[simp] theorem State.countdown_tick (s : State) : (s.countdown).tick = s.tick := by unfold State.countdown; split <;> simp_all
@[simp] theorem State.countdown_mem (s : State) : (s.countdown).mem = s.mem := by unfold State.countdown; split <;> simp_all
@[simp] theorem State.countdown_inputs (s : State) : (s.countdown).inputs = s.inputs := by unfold State.countdown; split <;> simp_all
@[simp] theorem State.countdown_platform (s : State) : (s.countdown).platform = s.platform := by unfold State.countdown; split <;> simp_all
@[simp] theorem State.countdown_draws (s : State) : (s.countdown).draws = s.draws := by unfold State.countdown; split <;> simp_all

/-! ### The accessors -/

/-- r0 reads zero. -/
@[simp] theorem State.reg_zero (s : State) : s.reg 0 = 0 := rfl

/-- A register other than r0 reads its storage. -/
theorem State.reg_of_ne (s : State) {r : Reg} (h : r ≠ 0) : s.reg r = s.regs[r] := by simp [State.reg, h]

/-- A register reads what was written to it, but for r0. -/
@[simp] theorem State.reg_setReg_same (s : State) (r : Reg) (v : Word) :
    (s.setReg r v).reg r = if r = 0 then 0 else v := by
  by_cases h : r = 0 <;> simp [State.reg, State.setReg, h]

/-- Another register reads as before. -/
theorem State.reg_setReg_other (s : State) {r q : Reg} (v : Word) (h : q ≠ r) : (s.setReg r v).reg q = s.reg q := by
  by_cases hr : r = 0
  · simp [State.setReg, hr]
  · have : (r : Nat) ≠ (q : Nat) := fun e => h (Fin.ext e.symm)
    simp [State.reg, State.setReg, hr, Vector.getElem_set_ne _ _ this]

/-- A compare register reads what was written to it. -/
@[simp] theorem State.pred_setPred_same (s : State) (p : PReg) (v : CmpReg) : (s.setPred p v).pred p = v := by
  simp [State.pred, State.setPred]

/-- Another compare register reads as before. -/
theorem State.pred_setPred_other (s : State) {p q : PReg} (v : CmpReg) (h : q ≠ p) : (s.setPred p v).pred q = s.pred q := by
  have : (p : Nat) ≠ (q : Nat) := fun e => h (Fin.ext e.symm)
  simp [State.pred, State.setPred, Vector.getElem_set_ne _ _ this]

@[simp] theorem State.setPred_reg (s : State) (p : PReg) (v : CmpReg) (r : Reg) : (s.setPred p v).reg r = s.reg r := rfl
@[simp] theorem State.jump_reg (s : State) (t : Word) (r : Reg) : (s.jump t).reg r = s.reg r := rfl
@[simp] theorem State.advance_reg (s : State) (len : Nat) (r : Reg) : (s.advance len).reg r = s.reg r := rfl
@[simp] theorem State.trapEnter_reg (s : State) (ret : Word) (vec : BitVec 9) (code : Option Word) (r : Reg) : (s.trapEnter ret vec code).reg r = s.reg r := rfl
@[simp] theorem State.trapReturn_reg (s : State) (r : Reg) : (s.trapReturn).reg r = s.reg r := rfl
@[simp] theorem State.endStep_reg (s : State) (r : Reg) : (s.endStep).reg r = s.reg r := rfl
@[simp] theorem State.countdown_reg (s : State) (r : Reg) : (s.countdown).reg r = s.reg r := by simp [State.reg]
@[simp] theorem State.jump_pred (s : State) (t : Word) (q : PReg) : (s.jump t).pred q = s.pred q := rfl
@[simp] theorem State.advance_pred (s : State) (len : Nat) (q : PReg) : (s.advance len).pred q = s.pred q := rfl
@[simp] theorem State.trapEnter_pred (s : State) (ret : Word) (vec : BitVec 9) (code : Option Word) (q : PReg) : (s.trapEnter ret vec code).pred q = s.pred q := rfl
@[simp] theorem State.trapReturn_pred (s : State) (q : PReg) : (s.trapReturn).pred q = s.pred q := rfl
@[simp] theorem State.endStep_pred (s : State) (q : PReg) : (s.endStep).pred q = s.pred q := rfl
@[simp] theorem State.setReg_pred (s : State) (r : Reg) (v : Word) (q : PReg) : (s.setReg r v).pred q = s.pred q := by simp [State.pred]
@[simp] theorem State.countdown_pred (s : State) (q : PReg) : (s.countdown).pred q = s.pred q := by simp [State.pred]

end Sys2Proof.Machine
end

