-- ==== Sys2Proof/Laws/Ops.lean ====
section
/-! SUPPORT. One lemma for each shared operation, that says once what it can do; proofs cite these instead of unfolding. -/

namespace Sys2Proof.Machine

/-! ## Raising and privilege -/

/-- On a platform that vectors the kind, raising is the trap entry with the raising instruction's address. -/
theorem State.raise_of_trap {s : State} {e : ExcKind} {a : TrapAssignment} (addr : Option Word)
    (h : s.platform.trap e = some a) : s.raise e addr = .next (s.trapEnter s.pc a.vector (some a.code)) := by
  simp [State.raise, h]

/-- On a platform that does not, raising is the terminal fault. -/
theorem State.raise_of_none {s : State} {e : ExcKind} (addr : Option Word) (h : s.platform.trap e = none) :
    s.raise e addr = .fault (.exception e s.pc addr) := by
  simp [State.raise, h]

/-- Raising leads to a state only by a trap entry. -/
theorem State.raise_next {s t : State} {e : ExcKind} {addr : Option Word} (h : s.raise e addr = .next t) :
    ∃ a, s.platform.trap e = some a ∧ t = s.trapEnter s.pc a.vector (some a.code) := by
  unfold State.raise at h
  split at h
  · next a ha => exact ⟨a, ha, by injection h with h; exact h.symm⟩
  · cases h

/-- A guarded instruction that leads to a state was allowed, or raised. -/
theorem State.guarded_next {s t : State} {needs : Bool} {k : Result} (h : s.guarded needs k = .next t) :
    k = .next t ∧ (needs = false ∨ s.km = true) ∨
      needs = true ∧ s.km = false ∧ s.raise .privilegeViolation none = .next t := by
  unfold State.guarded at h
  cases needs <;> cases hk : s.km <;> simp_all

/-- In a mode that may run it a guarded instruction is just the instruction. -/
theorem State.guarded_allowed {s : State} {needs : Bool} (k : Result) (h : s.km = true ∨ needs = false) :
    s.guarded needs k = k := by
  unfold State.guarded
  rcases h with h | h <;> simp [h]

/-- In a mode that may not it raises. -/
theorem State.guarded_denied {s : State} (k : Result) (h : s.km = false) :
    s.guarded true k = s.raise .privilegeViolation none := by
  simp [State.guarded, h]

/-! ## Accesses -/

/-- What an access leads to. -/
theorem Access.run_next {α : Type} {x : Access α} {s t : State} {k : α → Result} (h : x.run s k = .next t) :
    (∃ v, x = .value v ∧ k v = .next t) ∨ ∃ e addr, x = .raised e addr ∧ s.raise e addr = .next t := by
  cases x with
  | value v => exact .inl ⟨v, rfl, h⟩
  | raised e addr => exact .inr ⟨e, addr, rfl, h⟩
  | missing addr => cases h

@[simp] theorem Access.run_value {α : Type} (v : α) (s : State) (k : α → Result) : (Access.value v).run s k = k v := rfl

@[simp] theorem Access.run_raised {α : Type} (e : ExcKind) (addr : Option Word) (s : State) (k : α → Result) :
    (Access.raised e addr : Access α).run s k = s.raise e addr := rfl

@[simp] theorem Access.run_missing {α : Type} (addr : Word) (s : State) (k : α → Result) :
    (Access.missing addr : Access α).run s k = .fault (.unspecifiedMemory addr) := rfl

/-- An aligned read that the environment allows, of bytes that hold a number, answers that number. -/
theorem State.memRead_of_holds {s : State} {addr : Word} {n v : Nat} (h : s.mem.Holds addr n v) (ha : addr.toNat % n = 0)
    (hf : s.memFault addr n .load = none) : s.memRead addr n = .value (BitVec.ofNat 64 v) := by
  simp [State.memRead, misaligned, ha, hf, Memory.load_of_holds n _ _ _ h]

/-- A misaligned read raises. -/
theorem State.memRead_misaligned {s : State} {addr : Word} {n : Nat} (ha : addr.toNat % n ≠ 0) :
    s.memRead addr n = .raised .misalignedData (some addr) := by
  simp [State.memRead, misaligned, ha]

/-- An aligned read that the environment answers with a fault raises it. -/
theorem State.memRead_faulted {s : State} {addr : Word} {n : Nat} {f : BusFault} (ha : addr.toNat % n = 0)
    (hf : s.memFault addr n .load = some f) : s.memRead addr n = .raised f.kind (some addr) := by
  simp [State.memRead, misaligned, ha, hf]

/-- An aligned write that the environment allows stores. -/
theorem State.memWrite_allowed {s : State} {addr : Word} {n : Nat} (v : Word) (ha : addr.toNat % n = 0)
    (hf : s.memFault addr n .store = none) :
    s.memWrite addr n v = .value { s with mem := s.mem.store addr n v.toNat } := by
  simp [State.memWrite, misaligned, ha, hf]

/-- A misaligned write raises. -/
theorem State.memWrite_misaligned {s : State} {addr : Word} {n : Nat} (v : Word) (ha : addr.toNat % n ≠ 0) :
    s.memWrite addr n v = .raised .misalignedData (some addr) := by
  simp [State.memWrite, misaligned, ha]

/-- An aligned write that the environment answers with a fault raises it. -/
theorem State.memWrite_faulted {s : State} {addr : Word} {n : Nat} {f : BusFault} (v : Word) (ha : addr.toNat % n = 0)
    (hf : s.memFault addr n .store = some f) : s.memWrite addr n v = .raised f.kind (some addr) := by
  simp [State.memWrite, misaligned, ha, hf]

/-- Whatever a write leads to, it has stored and changed nothing else. -/
theorem State.memWrite_value {s t : State} {addr : Word} {n : Nat} {v : Word} (h : s.memWrite addr n v = .value t) :
    t = { s with mem := s.mem.store addr n v.toNat } := by
  unfold State.memWrite at h
  split at h
  · cases h
  · split at h
    · cases h
    · injection h with h; exact h.symm

/-! ## Special registers -/

/-- A read of a special register leaves the state alone, but for TICK, which remembers the read. -/
theorem State.readSpr_state {s t : State} {n : Nat} {v : Word} (h : s.readSpr n = some (v, t)) :
    t = s ∨ t = { s with tick := s.tickNow } := by
  unfold State.readSpr at h
  obtain ⟨r, -, hr⟩ := Option.bind_eq_some_iff.1 h
  cases r <;> simp only [State.readNamed, Option.some.injEq, Prod.mk.injEq, reduceCtorEq] at hr <;>
    first
      | exact .inl hr.2.symm
      | exact .inr hr.2.symm

/-- A write of a special register changes that register alone. -/
theorem State.writeSpr_state {s t : State} {n : Nat} {v : Word} (h : s.writeSpr n v = some t) :
    t = { s with lc := v } ∨ t = { s with preds := unpackPregs v } ∨ t = { s with asid := v } ∨ t = { s with exc := v } ∨
      t = { s with bir := v } ∨ t = { s with epc := v } ∨ t = { s with vba := v } := by
  unfold State.writeSpr at h
  obtain ⟨r, -, hr⟩ := Option.bind_eq_some_iff.1 h
  cases r <;> simp only [State.writeNamed, Option.some.injEq, reduceCtorEq] at hr <;> simp [← hr]

/-! ## How an instruction ends -/

/-- `finishReg` writes the register as `RegWritten` says and changes nothing else but the pc. -/
theorem State.finishReg_spec (s : State) (rt : Reg) (v : Word) (len : Nat) :
    ∃ t, s.finishReg rt v len = .next t ∧ RegWritten s t rt v ∧ t.pc = s.pc + BitVec.ofNat 64 len ∧ SamePredsBut [] s t ∧
      SameMemory s t ∧ SameSystem s t := by
  refine ⟨_, rfl, ⟨by simp, fun r hr => ?_⟩, by simp, fun p _ => by simp, fun a => by simp, ?_⟩
  · rw [State.advance_reg, State.reg_setReg_other s v (by simpa using hr)]
  · constructor <;> simp

/-- `finishPred` writes the compare register and changes nothing else but the pc. -/
theorem State.finishPred_spec (s : State) (pt : PReg) (v : CmpReg) (len : Nat) :
    ∃ t, s.finishPred pt v len = .next t ∧ t.pred pt = v ∧ SamePredsBut [pt] s t ∧ t.pc = s.pc + BitVec.ofNat 64 len ∧
      SameRegsBut [] s t ∧ SameMemory s t ∧ SameSystem s t := by
  refine ⟨_, rfl, by simp, fun p hp => ?_, by simp, fun r _ => by simp, fun a => by simp, ?_⟩
  · rw [State.advance_pred, State.pred_setPred_other s v (by simpa using hp)]
  · constructor <;> simp

/-- A jump changes the pc alone. -/
theorem State.jump_spec (s : State) (target : Word) :
    (s.jump target).pc = target ∧ SameData s (s.jump target) ∧ SameSystem s (s.jump target) :=
  ⟨rfl, ⟨fun _ _ => rfl, fun _ _ => rfl, fun _ => rfl⟩, by constructor <;> rfl⟩

/-- `finishBranch` changes the pc alone. -/
theorem State.finishBranch_spec (s : State) (taken : Bool) (disp : Word) (len : Nat) :
    ∃ t, s.finishBranch taken disp len = .next t ∧
      t.pc = (if taken then s.pc + BitVec.ofNat 64 len + disp else s.pc + BitVec.ofNat 64 len) ∧ SameData s t ∧
      SameSystem s t := by
  cases taken
  · exact ⟨_, rfl, s.jump_spec _⟩
  · exact ⟨_, rfl, s.jump_spec _⟩

/-- `finishLink` writes the link register and the pc. -/
theorem State.finishLink_spec (s : State) (rt : Reg) (target : Word) (len : Nat) :
    ∃ t, s.finishLink rt target len = .next t ∧ RegWritten s t rt (s.pc + BitVec.ofNat 64 len) ∧ t.pc = target ∧
      SamePredsBut [] s t ∧ SameMemory s t ∧ SameSystem s t := by
  refine ⟨_, rfl, ⟨by simp [State.npc], fun r hr => ?_⟩, by simp, fun p _ => by simp, fun a => by simp, ?_⟩
  · rw [State.jump_reg, State.reg_setReg_other s _ (by simpa using hr)]
  · constructor <;> simp

/-- What a raising instruction does, in the terms of claims. -/
theorem raises_of_eq {i : Instr} {s : State} {e : ExcKind} {addr : Option Word} (h : exec i s = s.raise e addr) :
    Raises i s e addr := by
  refine ⟨fun a ha => ⟨_, h.trans (State.raise_of_trap addr ha), ?_, ⟨fun _ _ => rfl, fun _ _ => rfl, fun _ => rfl⟩, ?_⟩,
    fun hn => h.trans (State.raise_of_none addr hn)⟩
  · simp only [State.trapEnter_pc, State.vectorAddress]
    congr 1
  · constructor <;> rfl

end Sys2Proof.Machine
end

