-- ==== Sys2Proof/Laws/Exec.lean ====
section
/-! SUPPORT. What an instruction can do, said once: every state that `exec` leads to is one of the forms below. Claims about all
instructions are proved by cases on it. -/

namespace Sys2Proof.Machine

/-- The states that instruction `i` can lead to from `s`. -/
inductive Completes (i : Instr) (s : State) : State → Prop where
  /-- Only advances. -/
  | nop : transfersControl i = false → Completes i s (s.advance (byteLength i))
  /-- Writes one general register. -/
  | reg (rt : Reg) (v : Word) : transfersControl i = false → Completes i s ((s.setReg rt v).advance (byteLength i))
  /-- Writes one compare register. -/
  | pred (pt : PReg) (v : CmpReg) : transfersControl i = false → writesCompareRegister i = true →
      Completes i s ((s.setPred pt v).advance (byteLength i))
  /-- Goes to a target. -/
  | jump (target : Word) : transfersControl i = true → Completes i s (s.jump target)
  /-- Links and goes to a target. -/
  | link (rt : Reg) (target : Word) : transfersControl i = true →
      Completes i s ((s.setReg rt (s.npc (byteLength i))).jump target)
  /-- Stores a word. -/
  | store (ea v : Word) : transfersControl i = false → storesMemory i = true →
      Completes i s (({ s with mem := s.mem.store ea 8 v.toNat } : State).advance (byteLength i))
  /-- Stores a word and writes one general register. -/
  | swap (ea v old : Word) (rt : Reg) : transfersControl i = false → storesMemory i = true →
      Completes i s ((({ s with mem := s.mem.store ea 8 v.toNat } : State).setReg rt old).advance (byteLength i))
  /-- The software interrupt. -/
  | int (n : BitVec 9) : i = .int n → Completes i s (s.trapEnter (s.npc 2) n none)
  /-- A trap return, in kernel mode. -/
  | ret : i = .rti ∨ i = .rte ∨ i = .rtd → s.km = true → Completes i s s.trapReturn
  /-- CLI where the mask is set, in kernel mode. -/
  | cli (d : Nat) : i = .cli → s.km = true → s.im = true →
      Completes i s (({ s with im := d != 0, cliPending := d } : State).advance 2)
  /-- SEI, in kernel mode. -/
  | sei : i = .sei → s.km = true → Completes i s (({ s with im := true, cliPending := 0 } : State).advance 2)
  /-- MF of TICK. -/
  | tick (rt : Reg) (n : SprNo) (v : Word) : i = .mf rt n →
      Completes i s ((({ s with tick := s.tickNow } : State).setReg rt v).advance 6)
  /-- MT. -/
  | mt (n : SprNo) (ra : Reg) (t : State) : i = .mt n ra → s.writeSpr n.val (s.reg ra) = some t →
      Completes i s (t.advance 6)
  /-- The entry of a synchronous exception. -/
  | trap (e : ExcKind) (addr : Option Word) (t : State) : s.raise e addr = .next t → Completes i s t

section
variable {i : Instr} {s t : State}

theorem completes_of_finishReg {rt : Reg} {v : Word} {len : Nat} (hi : transfersControl i = false)
    (hl : byteLength i = len) (h : s.finishReg rt v len = .next t) : Completes i s t := by
  injection h with h; subst h; subst hl; exact .reg rt v hi

theorem completes_of_finishPred {pt : PReg} {v : CmpReg} {len : Nat} (hi : transfersControl i = false)
    (hw : writesCompareRegister i = true) (hl : byteLength i = len) (h : s.finishPred pt v len = .next t) :
    Completes i s t := by
  injection h with h; subst h; subst hl; exact .pred pt v hi hw

theorem completes_of_finishNop {len : Nat} (hi : transfersControl i = false) (hl : byteLength i = len)
    (h : s.finishNop len = .next t) : Completes i s t := by
  injection h with h; subst h; subst hl; exact .nop hi

theorem completes_of_finishBranch {taken : Bool} {disp : Word} {len : Nat} (hi : transfersControl i = true)
    (h : s.finishBranch taken disp len = .next t) : Completes i s t := by
  cases taken <;> (injection h with h; subst h; exact .jump _ hi)

theorem completes_of_finishLink {rt : Reg} {target : Word} {len : Nat} (hi : transfersControl i = true)
    (hl : byteLength i = len) (h : s.finishLink rt target len = .next t) : Completes i s t := by
  injection h with h; subst h; subst hl; exact .link rt target hi

theorem completes_of_finishLoad {rt : Reg} {ea : Word} {n : Nat} {ext : Word → Word} {len : Nat}
    (hi : transfersControl i = false) (hl : byteLength i = len) (h : s.finishLoad rt ea n ext len = .next t) :
    Completes i s t := by
  rcases Access.run_next h with ⟨v, -, h⟩ | ⟨e, addr, -, h⟩
  · exact completes_of_finishReg hi hl h
  · exact .trap e addr t h

theorem completes_of_finishLoadWord {rt : Reg} {ea : Word} {len : Nat} (hi : transfersControl i = false)
    (hl : byteLength i = len) (h : s.finishLoadWord rt ea len = .next t) : Completes i s t := by
  unfold State.finishLoadWord at h
  split at h
  · exact completes_of_finishNop hi hl h
  · exact completes_of_finishLoad hi hl h

theorem completes_of_finishStoreWord {rs : Reg} {ea : Word} {len : Nat} (hi : transfersControl i = false)
    (hs : storesMemory i = true) (hl : byteLength i = len) (h : s.finishStoreWord rs ea len = .next t) :
    Completes i s t := by
  rcases Access.run_next h with ⟨u, hu, h⟩ | ⟨e, addr, -, h⟩
  · injection h with h
    subst h; subst hl
    rw [State.memWrite_value hu]
    exact .store ea _ hi hs
  · exact .trap e addr t h

theorem completes_of_guarded {needs : Bool} {k : Result} (hk : (needs = false ∨ s.km = true) → k = .next t → Completes i s t)
    (h : s.guarded needs k = .next t) : Completes i s t := by
  rcases State.guarded_next h with ⟨h, ha⟩ | ⟨-, -, h⟩
  · exact hk ha h
  · exact .trap _ _ t h

theorem completes_of_raise {e : ExcKind} {addr : Option Word} (h : s.raise e addr = .next t) : Completes i s t :=
  .trap e addr t h

theorem completes_cas {rt ra rb rc : Reg} {disp : BitVec 12} (h : execCas rt ra rb rc disp s = .next t) :
    Completes (.cas rt ra rb rc disp) s t := by
  unfold execCas at h
  split at h
  · exact .trap _ _ t h
  · rcases Access.run_next h with ⟨old, -, h⟩ | ⟨e, addr, -, h⟩
    · split at h
      · rcases Access.run_next h with ⟨u, hu, h⟩ | ⟨e, addr, -, h⟩
        · injection h with h
          subst h
          rw [State.memWrite_value hu]
          exact .swap _ _ _ _ rfl rfl
        · exact .trap e addr t h
      · injection h with h; subst h; exact .reg _ _ rfl
    · exact .trap e addr t h

theorem completes_mf {rt : Reg} {n : SprNo} (h : execMf rt n s = .next t) : Completes (.mf rt n) s t := by
  refine completes_of_guarded (fun _ h => ?_) h
  split at h
  · next v u hu =>
    injection h with h
    subst h
    rcases State.readSpr_state hu with hs | hs <;> subst hs
    · exact .reg rt v rfl
    · exact .tick rt n v rfl
  · exact .trap _ _ t h

theorem completes_mt {n : SprNo} {ra : Reg} (h : execMt n ra s = .next t) : Completes (.mt n ra) s t := by
  refine completes_of_guarded (fun _ h => ?_) h
  split at h
  · next u hu => injection h with h; subst h; exact .mt n ra u rfl hu
  · exact .trap _ _ t h

theorem completes_cli (h : execCli s = .next t) : Completes .cli s t := by
  refine completes_of_guarded (fun ha h => ?_) h
  have hk : s.km = true := by simpa using ha
  split at h
  · next him => injection h with h; subst h; exact .cli _ rfl hk him
  · injection h with h; subst h; exact .nop rfl

theorem completes_sei (h : execSei s = .next t) : Completes .sei s t :=
  completes_of_guarded (fun ha h => by injection h with h; subst h; exact .sei rfl (by simpa using ha)) h

end

/-- Every state that `exec` leads to is one of the forms. -/
theorem exec_completes {i : Instr} {s t : State} (h : exec i s = .next t) : Completes i s t := by
  cases i
  case cas => exact completes_cas h
  case mf => exact completes_mf h
  case mt => exact completes_mt h
  case cli => exact completes_cli h
  case sei => exact completes_sei h
  case int n => injection h with h; subst h; exact .int n rfl
  case rts => injection h with h; subst h; exact .jump _ rfl
  case bf => injection h with h; subst h; exact .jump _ rfl
  case bt => injection h with h; subst h; exact .jump _ rfl
  case addo => simp only [exec, execAddo] at h; split at h
               · exact completes_of_raise h
               · exact completes_of_finishReg rfl rfl h
  case subo => simp only [exec, execSubo] at h; split at h
               · exact completes_of_raise h
               · exact completes_of_finishReg rfl rfl h
  case div => simp only [exec, execDiv] at h; split at h
              · exact completes_of_raise h
              · split at h
                · exact completes_of_raise h
                · exact completes_of_finishReg rfl rfl h
  case cmpil => simp only [exec, execCmpil] at h; split at h
                · exact completes_of_finishPred rfl rfl rfl h
                · exact completes_of_finishNop rfl rfl h
  case rti => exact completes_of_guarded (fun ha h => by injection h with h; subst h; exact .ret (by simp) (by simpa using ha)) h
  case rte => exact completes_of_guarded (fun ha h => by injection h with h; subst h; exact .ret (by simp) (by simpa using ha)) h
  case rtd => exact completes_of_guarded (fun ha h => by injection h with h; subst h; exact .ret (by simp) (by simpa using ha)) h
  all_goals
    first
      | exact completes_of_finishReg rfl rfl h
      | exact completes_of_finishPred rfl rfl rfl h
      | exact completes_of_finishNop rfl rfl h
      | exact completes_of_finishBranch rfl h
      | exact completes_of_finishLink rfl rfl h
      | exact completes_of_finishLoad rfl rfl h
      | exact completes_of_finishLoadWord rfl rfl h
      | exact completes_of_finishStoreWord rfl rfl rfl h
      | exact completes_of_guarded (fun _ h => completes_of_finishNop rfl rfl h) h
      | cases h

end Sys2Proof.Machine
end

