-- ==== Sys2Proof/Laws/PerInstr.lean ====
section
/-! SUPPORT. One lemma per instruction: the word of an instruction fits its bytes, and its opcode byte gives its length. The host's
case split over all instructions cites them; they rest on one lemma per format. -/

namespace Sys2Proof.Laws

/-! ## One lemma per format -/

section
variable {op r ra v L p : Nat}

theorem fits_const (w L : Nat) (h : w < 2 ^ (8 * L) ∧ lengthOf (w % 256) = L) : w < 2 ^ (8 * L) ∧ lengthOf (w % 256) = L := h

theorem fits_encCI (ho : op < 16) (hr : r < 32) (hv : v < 32) :
    encCI op r v < 2 ^ (8 * 2) ∧ lengthOf (encCI op r v % 256) = 2 := by
  simp only [encCI, lengthOf]; omega

theorem fits_encCI10 (ho : op < 16) (hv : v < 1024) :
    encCI10 op v < 2 ^ (8 * 2) ∧ lengthOf (encCI10 op v % 256) = 2 := by
  simp only [encCI10, lengthOf]; omega

theorem fits_encCR (ho : op < 64) (hr : r < 32) (ha : ra < 8) :
    encCR op r ra < 2 ^ (8 * 2) ∧ lengthOf (encCR op r ra % 256) = 2 := by
  simp only [encCR, lengthOf]; omega

theorem fits_encCB (ho : op < 16) (hr : r < 8) (hv : v < 128) :
    encCB op r v < 2 ^ (8 * 2) ∧ lengthOf (encCB op r v % 256) = 2 := by
  simp only [encCB, lengthOf]; omega

theorem fits_encCM (ho : op < 16) (hr : r < 8) (ha : ra < 8) (hv : v < 16) :
    encCM op r ra v < 2 ^ (8 * 2) ∧ lengthOf (encCM op r ra v % 256) = 2 := by
  simp only [encCM, lengthOf]; omega

theorem fits_encINT (hv : v < 512) : encINT v < 2 ^ (8 * 2) ∧ lengthOf (encINT v % 256) = 2 := by
  simp only [encINT, lengthOf]; omega

theorem opcode_low (x y z : Nat) (ho : op < 256) : (op + x * 2 ^ 8 + y * 2 ^ 13 + z * 2 ^ 18) % 256 = op := by omega

theorem fits_encRI (n : Nat) (ho : op < 256) (hr : r < 32) (ha : ra < 32) (hv : v < 2 ^ n) (hL : 8 * L = 18 + n + p)
    (hl : lengthOf op = L) : encRI op r ra v < 2 ^ (8 * L) ∧ lengthOf (encRI op r ra v % 256) = L := by
  have h : encRI op r ra v < 2 ^ (18 + n) := by
    have : 2 ^ (18 + n) = 2 ^ n * 2 ^ 18 := by rw [Nat.add_comm, Nat.pow_add]
    simp only [encRI]; omega
  refine ⟨Nat.lt_of_lt_of_le h (Nat.pow_le_pow_right (by decide) (by omega)), ?_⟩
  rw [encRI, opcode_low _ _ _ ho, hl]

theorem fits_encRRR {sel rb : Nat} (ho : op < 256) (hs : sel < 512) (hr : r < 32) (hb : rb < 32) (ha : ra < 32)
    (hl : lengthOf op = 4) : encRRR op sel r rb ra < 2 ^ (8 * 4) ∧ lengthOf (encRRR op sel r rb ra % 256) = 4 := by
  refine ⟨by simp only [encRRR]; omega, ?_⟩
  rw [show encRRR op sel r rb ra % 256 = op by simp only [encRRR]; omega, hl]

theorem fits_encR {k fn : Nat} (ho : op < 256) (hk : k < 64) (hf : fn < 64) (hr : r < 32) (ha : ra < 32)
    (hl : lengthOf op = 4) : encR op k fn r ra < 2 ^ (8 * 4) ∧ lengthOf (encR op k fn r ra % 256) = 4 := by
  refine ⟨by simp only [encR]; omega, ?_⟩
  rw [show encR op k fn r ra % 256 = op by simp only [encR]; omega, hl]

/-- The container's byte is that of a four-byte instruction. -/
theorem lengthOf_container {p : Encodings} (h : p.containerFree = true) : lengthOf p.opcL24.toNat = 4 := by
  have := p.containerFree_range h
  simp only [lengthOf]
  omega

theorem fits_encBcc {cond : Nat} (hc : cond < 16) (hr : r < 8) (hv : v < 2 ^ 14) :
    encBcc cond r v < 2 ^ (8 * 4) ∧ lengthOf (encBcc cond r v % 256) = 4 := by
  simp only [encBcc, lengthOf]; omega

theorem fits_encJ (n : Nat) (ho : op < 256) (hr : r < 32) (hv : v < 2 ^ n) (hL : 8 * L = 13 + n + p) (hl : lengthOf op = L) :
    encJ op r v < 2 ^ (8 * L) ∧ lengthOf (encJ op r v % 256) = L := by
  have h : encJ op r v < 2 ^ (13 + n) := by
    have : 2 ^ (13 + n) = 2 ^ n * 2 ^ 13 := by rw [Nat.add_comm, Nat.pow_add]
    simp only [encJ]; omega
  refine ⟨Nat.lt_of_lt_of_le h (Nat.pow_le_pow_right (by decide) (by omega)), ?_⟩
  rw [show encJ op r v % 256 = op by simp only [encJ]; omega, hl]

theorem fits_encCAS {rb rc : Nat} (hr : r < 32) (hc : rc < 32) (hb : rb < 32) (ha : ra < 32) (hv : v < 2 ^ 12) :
    encCAS r rc rb ra v < 2 ^ (8 * 6) ∧ lengthOf (encCAS r rc rb ra v % 256) = 6 := by
  simp only [encCAS, lengthOf]; omega

theorem fits_encBF {op2 mb me : Nat} (ho : op < 256) (h2 : op2 < 4) (hr : r < 32) (ha : ra < 32) (hb : mb < 64) (he : me < 64)
    (hl : lengthOf op = 6) : encBF op op2 r ra mb me < 2 ^ (8 * 6) ∧ lengthOf (encBF op op2 r ra mb me % 256) = 6 := by
  refine ⟨by simp only [encBF]; omega, ?_⟩
  rw [show encBF op op2 r ra mb me % 256 = op by simp only [encBF]; omega, hl]

end

/-! ## One lemma per instruction -/

namespace EncodingFits

/-- The word of an instruction has no bit beyond its length, and the top two bits of its opcode byte give that length (R91),
whichever free byte is the container's. -/
def Statement (i : Instr) : Prop :=
  ∀ p : Encodings, p.containerFree = true →
    encode p i < 2 ^ (8 * byteLength i) ∧ lengthOf (encode p i % 256) = byteLength i


theorem addi16 (rt : Reg) (imm : BitVec 5) : Statement (.addi16 rt imm) := fun _ _ => fits_encCI (by decide) rt.isLt imm.isLt
theorem addiSp (imm : BitVec 10) : Statement (.addiSp imm) := fun _ _ => fits_encCI10 (by decide) imm.isLt
theorem ldi (rt : Reg) (imm : BitVec 5) : Statement (.ldi rt imm) := fun _ _ => fits_encCI (by decide) rt.isLt imm.isLt
theorem add16 (rt : Reg) (ra3 : Reg3) : Statement (.add16 rt ra3) := fun _ _ => fits_encCR (by decide) rt.isLt ra3.isLt
theorem and16 (rt : Reg) (ra3 : Reg3) : Statement (.and16 rt ra3) := fun _ _ => fits_encCR (by decide) rt.isLt ra3.isLt
theorem or16 (rt : Reg) (ra3 : Reg3) : Statement (.or16 rt ra3) := fun _ _ => fits_encCR (by decide) rt.isLt ra3.isLt
theorem lw16 (rt3 : Reg3) (ra3 : Reg3) (disp : BitVec 4) : Statement (.lw16 rt3 ra3 disp) :=
  fun _ _ => fits_encCM (by decide) rt3.isLt ra3.isLt disp.isLt
theorem sw16 (rs3 : Reg3) (ra3 : Reg3) (disp : BitVec 4) : Statement (.sw16 rs3 ra3 disp) :=
  fun _ _ => fits_encCM (by decide) rs3.isLt ra3.isLt disp.isLt
theorem lwBp (rt : Reg) (disp : BitVec 5) : Statement (.lwBp rt disp) := fun _ _ => fits_encCI (by decide) rt.isLt disp.isLt
theorem swBp (rs : Reg) (disp : BitVec 5) : Statement (.swBp rs disp) := fun _ _ => fits_encCI (by decide) rs.isLt disp.isLt
theorem beqs (pn : PReg) (disp : BitVec 7) : Statement (.beqs pn disp) := fun _ _ => fits_encCB (by decide) pn.isLt disp.isLt
theorem bnes (pn : PReg) (disp : BitVec 7) : Statement (.bnes pn disp) := fun _ _ => fits_encCB (by decide) pn.isLt disp.isLt
theorem lwSp (rt : Reg) (disp : BitVec 5) : Statement (.lwSp rt disp) := fun _ _ => fits_encCI (by decide) rt.isLt disp.isLt
theorem swSp (rs : Reg) (disp : BitVec 5) : Statement (.swSp rs disp) := fun _ _ => fits_encCI (by decide) rs.isLt disp.isLt
theorem int (offset : BitVec 9) : Statement (.int offset) := fun _ _ => fits_encINT offset.isLt
theorem rts : Statement (.rts) := fun _ _ => fits_const (enc33 0x00) 2 (by decide)
theorem rti : Statement (.rti) := fun _ _ => fits_const (enc33 0x01) 2 (by decide)
theorem rtd : Statement (.rtd) := fun _ _ => fits_const (enc33 0x02) 2 (by decide)
theorem rte : Statement (.rte) := fun _ _ => fits_const (enc33 0x03) 2 (by decide)
theorem sync : Statement (.sync) := fun _ _ => fits_const (enc33 0x80) 2 (by decide)
theorem memdb : Statement (.memdb) := fun _ _ => fits_const (enc33 0x82) 2 (by decide)
theorem memsb : Statement (.memsb) := fun _ _ => fits_const (enc33 0x83) 2 (by decide)
theorem cli : Statement (.cli) := fun _ _ => fits_const (enc33 0x90) 2 (by decide)
theorem sei : Statement (.sei) := fun _ _ => fits_const (enc33 0x91) 2 (by decide)
theorem nopE1 : Statement (.nopE1) := fun _ _ => fits_const (enc33 0xE1) 2 (by decide)
theorem nopEA : Statement (.nopEA) := fun _ _ => fits_const (enc33 0xEA) 2 (by decide)
theorem mrk1 : Statement (.mrk1) := fun _ _ => fits_const (enc33 0xE4) 2 (by decide)
theorem mrk2 : Statement (.mrk2) := fun _ _ => fits_const (enc33 0xE5) 2 (by decide)
theorem mrk3 : Statement (.mrk3) := fun _ _ => fits_const (enc33 0xE6) 2 (by decide)
theorem mrk4 : Statement (.mrk4) := fun _ _ => fits_const (enc33 0xE7) 2 (by decide)
theorem addiBp (imm : BitVec 10) : Statement (.addiBp imm) := fun _ _ => fits_encCI10 (by decide) imm.isLt
theorem jal16 (disp : BitVec 10) : Statement (.jal16 disp) := fun _ _ => fits_encCI10 (by decide) disp.isLt
theorem addi (rt : Reg) (ra : Reg) (imm : BitVec 14) : Statement (.addi rt ra imm) :=
  fun _ _ => fits_encRI (L := 4) (p := 0) 14 (by decide) rt.isLt ra.isLt imm.isLt rfl rfl
theorem cmpi (pt : PReg) (ra : Reg) (imm : BitVec 14) : Statement (.cmpi pt ra imm) :=
  fun _ _ => fits_encRI (L := 4) (p := 0) 14 (by decide) (Nat.lt_trans pt.isLt (by decide)) ra.isLt imm.isLt rfl rfl
theorem andi (rt : Reg) (ra : Reg) (imm : BitVec 14) : Statement (.andi rt ra imm) :=
  fun _ _ => fits_encRI (L := 4) (p := 0) 14 (by decide) rt.isLt ra.isLt imm.isLt rfl rfl
theorem ori (rt : Reg) (ra : Reg) (imm : BitVec 14) : Statement (.ori rt ra imm) :=
  fun _ _ => fits_encRI (L := 4) (p := 0) 14 (by decide) rt.isLt ra.isLt imm.isLt rfl rfl
theorem xori (rt : Reg) (ra : Reg) (imm : BitVec 14) : Statement (.xori rt ra imm) :=
  fun _ _ => fits_encRI (L := 4) (p := 0) 14 (by decide) rt.isLt ra.isLt imm.isLt rfl rfl
theorem biti (pt : PReg) (ra : Reg) (imm : BitVec 14) : Statement (.biti pt ra imm) :=
  fun _ _ => fits_encRI (L := 4) (p := 0) 14 (by decide) (Nat.lt_trans pt.isLt (by decide)) ra.isLt imm.isLt rfl rfl
theorem twoAddi (rt : Reg) (ra : Reg) (imm : BitVec 14) : Statement (.twoAddi rt ra imm) :=
  fun _ _ => fits_encRI (L := 4) (p := 0) 14 (by decide) rt.isLt ra.isLt imm.isLt rfl rfl
theorem fourAddi (rt : Reg) (ra : Reg) (imm : BitVec 14) : Statement (.fourAddi rt ra imm) :=
  fun _ _ => fits_encRI (L := 4) (p := 0) 14 (by decide) rt.isLt ra.isLt imm.isLt rfl rfl
theorem eightAddi (rt : Reg) (ra : Reg) (imm : BitVec 14) : Statement (.eightAddi rt ra imm) :=
  fun _ _ => fits_encRI (L := 4) (p := 0) 14 (by decide) rt.isLt ra.isLt imm.isLt rfl rfl
theorem sixteenAddi (rt : Reg) (ra : Reg) (imm : BitVec 14) : Statement (.sixteenAddi rt ra imm) :=
  fun _ _ => fits_encRI (L := 4) (p := 0) 14 (by decide) rt.isLt ra.isLt imm.isLt rfl rfl
theorem lb (rt : Reg) (ra : Reg) (disp : BitVec 14) : Statement (.lb rt ra disp) :=
  fun _ _ => fits_encRI (L := 4) (p := 0) 14 (by decide) rt.isLt ra.isLt disp.isLt rfl rfl
theorem lbu (rt : Reg) (ra : Reg) (disp : BitVec 14) : Statement (.lbu rt ra disp) :=
  fun _ _ => fits_encRI (L := 4) (p := 0) 14 (by decide) rt.isLt ra.isLt disp.isLt rfl rfl
theorem lh (rt : Reg) (ra : Reg) (disp : BitVec 14) : Statement (.lh rt ra disp) :=
  fun _ _ => fits_encRI (L := 4) (p := 0) 14 (by decide) rt.isLt ra.isLt disp.isLt rfl rfl
theorem lhu (rt : Reg) (ra : Reg) (disp : BitVec 14) : Statement (.lhu rt ra disp) :=
  fun _ _ => fits_encRI (L := 4) (p := 0) 14 (by decide) rt.isLt ra.isLt disp.isLt rfl rfl
theorem lw (rt : Reg) (ra : Reg) (disp : BitVec 14) : Statement (.lw rt ra disp) :=
  fun _ _ => fits_encRI (L := 4) (p := 0) 14 (by decide) rt.isLt ra.isLt disp.isLt rfl rfl
theorem sw (rs : Reg) (ra : Reg) (disp : BitVec 14) : Statement (.sw rs ra disp) :=
  fun _ _ => fits_encRI (L := 4) (p := 0) 14 (by decide) rs.isLt ra.isLt disp.isLt rfl rfl
theorem add (rt : Reg) (ra : Reg) (rb : Reg) : Statement (.add rt ra rb) :=
  fun _ _ => fits_encRRR (by decide) (by decide) rt.isLt rb.isLt ra.isLt rfl
theorem addo (rt : Reg) (ra : Reg) (rb : Reg) : Statement (.addo rt ra rb) :=
  fun _ _ => fits_encRRR (by decide) (by decide) rt.isLt rb.isLt ra.isLt rfl
theorem sub (rt : Reg) (ra : Reg) (rb : Reg) : Statement (.sub rt ra rb) :=
  fun _ _ => fits_encRRR (by decide) (by decide) rt.isLt rb.isLt ra.isLt rfl
theorem subo (rt : Reg) (ra : Reg) (rb : Reg) : Statement (.subo rt ra rb) :=
  fun _ _ => fits_encRRR (by decide) (by decide) rt.isLt rb.isLt ra.isLt rfl
theorem xor (rt : Reg) (ra : Reg) (rb : Reg) : Statement (.xor rt ra rb) :=
  fun _ _ => fits_encRRR (by decide) (by decide) rt.isLt rb.isLt ra.isLt rfl
theorem cmp (pt : PReg) (ra : Reg) (rb : Reg) : Statement (.cmp pt ra rb) :=
  fun _ _ => fits_encRRR (by decide) (by decide) (Nat.lt_trans pt.isLt (by decide)) rb.isLt ra.isLt rfl
theorem and (rt : Reg) (ra : Reg) (rb : Reg) : Statement (.and rt ra rb) :=
  fun _ _ => fits_encRRR (by decide) (by decide) rt.isLt rb.isLt ra.isLt rfl
theorem or (rt : Reg) (ra : Reg) (rb : Reg) : Statement (.or rt ra rb) :=
  fun _ _ => fits_encRRR (by decide) (by decide) rt.isLt rb.isLt ra.isLt rfl
theorem nand (rt : Reg) (ra : Reg) (rb : Reg) : Statement (.nand rt ra rb) :=
  fun _ _ => fits_encRRR (by decide) (by decide) rt.isLt rb.isLt ra.isLt rfl
theorem nor (rt : Reg) (ra : Reg) (rb : Reg) : Statement (.nor rt ra rb) :=
  fun _ _ => fits_encRRR (by decide) (by decide) rt.isLt rb.isLt ra.isLt rfl
theorem chk (pt : PReg) (ra : Reg) (rb : Reg) (rc : Reg) : Statement (.chk pt ra rb rc) :=
  fun _ _ => fits_encRRR (by decide) (by omega) rc.isLt rb.isLt ra.isLt rfl
theorem chku (pt : PReg) (ra : Reg) (rb : Reg) (rc : Reg) : Statement (.chku pt ra rb rc) :=
  fun _ _ => fits_encRRR (by decide) (by omega) rc.isLt rb.isLt ra.isLt rfl
theorem bf (pn : PReg) (disp : BitVec 14) : Statement (.bf pn disp) := fun _ _ => fits_encBcc (by decide) pn.isLt disp.isLt
theorem bt (pn : PReg) (disp : BitVec 14) : Statement (.bt pn disp) := fun _ _ => fits_encBcc (by decide) pn.isLt disp.isLt
theorem beq (pn : PReg) (disp : BitVec 14) : Statement (.beq pn disp) := fun _ _ => fits_encBcc (by decide) pn.isLt disp.isLt
theorem bne (pn : PReg) (disp : BitVec 14) : Statement (.bne pn disp) := fun _ _ => fits_encBcc (by decide) pn.isLt disp.isLt
theorem ble (pn : PReg) (disp : BitVec 14) : Statement (.ble pn disp) := fun _ _ => fits_encBcc (by decide) pn.isLt disp.isLt
theorem bgt (pn : PReg) (disp : BitVec 14) : Statement (.bgt pn disp) := fun _ _ => fits_encBcc (by decide) pn.isLt disp.isLt
theorem bge (pn : PReg) (disp : BitVec 14) : Statement (.bge pn disp) := fun _ _ => fits_encBcc (by decide) pn.isLt disp.isLt
theorem blt (pn : PReg) (disp : BitVec 14) : Statement (.blt pn disp) := fun _ _ => fits_encBcc (by decide) pn.isLt disp.isLt
theorem bleu (pn : PReg) (disp : BitVec 14) : Statement (.bleu pn disp) := fun _ _ => fits_encBcc (by decide) pn.isLt disp.isLt
theorem bgtu (pn : PReg) (disp : BitVec 14) : Statement (.bgtu pn disp) := fun _ _ => fits_encBcc (by decide) pn.isLt disp.isLt
theorem bgeu (pn : PReg) (disp : BitVec 14) : Statement (.bgeu pn disp) := fun _ _ => fits_encBcc (by decide) pn.isLt disp.isLt
theorem bltu (pn : PReg) (disp : BitVec 14) : Statement (.bltu pn disp) := fun _ _ => fits_encBcc (by decide) pn.isLt disp.isLt
theorem bsig (pn : PReg) (disp : BitVec 14) : Statement (.bsig pn disp) := fun _ _ => fits_encBcc (by decide) pn.isLt disp.isLt
theorem jal (rt : Reg) (offset : BitVec 19) : Statement (.jal rt offset) :=
  fun _ _ => fits_encJ (L := 4) (p := 0) 19 (by decide) rt.isLt offset.isLt rfl rfl
theorem xnor (rt : Reg) (ra : Reg) (rb : Reg) : Statement (.xnor rt ra rb) :=
  fun p h => fits_encRRR p.opcL24.isLt (by decide) rt.isLt rb.isLt ra.isLt (lengthOf_container h)
theorem andc (rt : Reg) (ra : Reg) (rb : Reg) : Statement (.andc rt ra rb) :=
  fun p h => fits_encRRR p.opcL24.isLt (by decide) rt.isLt rb.isLt ra.isLt (lengthOf_container h)
theorem lbux (rt : Reg) (ra : Reg) (rb : Reg) : Statement (.lbux rt ra rb) :=
  fun p h => fits_encRRR p.opcL24.isLt (by decide) rt.isLt rb.isLt ra.isLt (lengthOf_container h)
theorem lbx (rt : Reg) (ra : Reg) (rb : Reg) : Statement (.lbx rt ra rb) :=
  fun p h => fits_encRRR p.opcL24.isLt (by decide) rt.isLt rb.isLt ra.isLt (lengthOf_container h)
theorem lhux (rt : Reg) (ra : Reg) (rb : Reg) : Statement (.lhux rt ra rb) :=
  fun p h => fits_encRRR p.opcL24.isLt (by decide) rt.isLt rb.isLt ra.isLt (lengthOf_container h)
theorem lhx (rt : Reg) (ra : Reg) (rb : Reg) : Statement (.lhx rt ra rb) :=
  fun p h => fits_encRRR p.opcL24.isLt (by decide) rt.isLt rb.isLt ra.isLt (lengthOf_container h)
theorem div (rt : Reg) (ra : Reg) (rb : Reg) : Statement (.div rt ra rb) :=
  fun p h => fits_encRRR p.opcL24.isLt (by decide) rt.isLt rb.isLt ra.isLt (lengthOf_container h)
theorem divu (rt : Reg) (ra : Reg) (rb : Reg) : Statement (.divu rt ra rb) :=
  fun p h => fits_encRRR p.opcL24.isLt (by decide) rt.isLt rb.isLt ra.isLt (lengthOf_container h)
theorem shl (rt : Reg) (ra : Reg) (rb : Reg) : Statement (.shl rt ra rb) :=
  fun p h => fits_encRRR p.opcL24.isLt (by decide) rt.isLt rb.isLt ra.isLt (lengthOf_container h)
theorem shru (rt : Reg) (ra : Reg) (rb : Reg) : Statement (.shru rt ra rb) :=
  fun p h => fits_encRRR p.opcL24.isLt (by decide) rt.isLt rb.isLt ra.isLt (lengthOf_container h)
theorem shr (rt : Reg) (ra : Reg) (rb : Reg) : Statement (.shr rt ra rb) :=
  fun p h => fits_encRRR p.opcL24.isLt (by decide) rt.isLt rb.isLt ra.isLt (lengthOf_container h)
theorem twoAdd (rt : Reg) (ra : Reg) (rb : Reg) : Statement (.twoAdd rt ra rb) :=
  fun p h => fits_encRRR p.opcL24.isLt (by decide) rt.isLt rb.isLt ra.isLt (lengthOf_container h)
theorem fourAdd (rt : Reg) (ra : Reg) (rb : Reg) : Statement (.fourAdd rt ra rb) :=
  fun p h => fits_encRRR p.opcL24.isLt (by decide) rt.isLt rb.isLt ra.isLt (lengthOf_container h)
theorem eightAdd (rt : Reg) (ra : Reg) (rb : Reg) : Statement (.eightAdd rt ra rb) :=
  fun p h => fits_encRRR p.opcL24.isLt (by decide) rt.isLt rb.isLt ra.isLt (lengthOf_container h)
theorem sixteenAdd (rt : Reg) (ra : Reg) (rb : Reg) : Statement (.sixteenAdd rt ra rb) :=
  fun p h => fits_encRRR p.opcL24.isLt (by decide) rt.isLt rb.isLt ra.isLt (lengthOf_container h)
theorem neg (rt : Reg) (ra : Reg) : Statement (.neg rt ra) :=
  fun p h => fits_encR p.opcL24.isLt (by decide) (by decide) rt.isLt ra.isLt (lengthOf_container h)
theorem not (rt : Reg) (ra : Reg) : Statement (.not rt ra) :=
  fun p h => fits_encR p.opcL24.isLt (by decide) (by decide) rt.isLt ra.isLt (lengthOf_container h)
theorem abs (rt : Reg) (ra : Reg) : Statement (.abs rt ra) :=
  fun p h => fits_encR p.opcL24.isLt (by decide) (by decide) rt.isLt ra.isLt (lengthOf_container h)
theorem com (rt : Reg) (ra : Reg) : Statement (.com rt ra) :=
  fun p h => fits_encR p.opcL24.isLt (by decide) (by decide) rt.isLt ra.isLt (lengthOf_container h)
theorem jalr (rt : Reg) (ra : Reg) : Statement (.jalr rt ra) :=
  fun p h => fits_encR p.opcL24.isLt (by decide) (by decide) rt.isLt ra.isLt (lengthOf_container h)
theorem cacheInvICache (ra : Reg) : Statement (.cacheInvICache ra) :=
  fun p h => fits_encR p.opcL24.isLt (by decide) (by decide) (by decide) ra.isLt (lengthOf_container h)
theorem cacheInvILine (ra : Reg) : Statement (.cacheInvILine ra) :=
  fun p h => fits_encR p.opcL24.isLt (by decide) (by decide) (by decide) ra.isLt (lengthOf_container h)
theorem cacheInvDCache (ra : Reg) : Statement (.cacheInvDCache ra) :=
  fun p h => fits_encR p.opcL24.isLt (by decide) (by decide) (by decide) ra.isLt (lengthOf_container h)
theorem cacheInvDLine (ra : Reg) : Statement (.cacheInvDLine ra) :=
  fun p h => fits_encR p.opcL24.isLt (by decide) (by decide) (by decide) ra.isLt (lengthOf_container h)
theorem addi48 (rt : Reg) (ra : Reg) (imm : BitVec 30) : Statement (.addi48 rt ra imm) :=
  fun _ _ => fits_encRI (L := 6) (p := 0) 30 (by decide) rt.isLt ra.isLt imm.isLt rfl rfl
theorem cmpi48 (pt : PReg) (ra : Reg) (imm : BitVec 30) : Statement (.cmpi48 pt ra imm) :=
  fun _ _ => fits_encRI (L := 6) (p := 0) 30 (by decide) (Nat.lt_trans pt.isLt (by decide)) ra.isLt imm.isLt rfl rfl
theorem cmpil (pt : PReg) (ra : Reg) (imm : BitVec 24) : Statement (.cmpil pt ra imm) :=
  fun _ _ => fits_encRI (L := 6) (p := 6) 24 (by decide) (Nat.lt_trans pt.isLt (by decide)) ra.isLt imm.isLt rfl rfl
theorem andi48 (rt : Reg) (ra : Reg) (imm : BitVec 30) : Statement (.andi48 rt ra imm) :=
  fun _ _ => fits_encRI (L := 6) (p := 0) 30 (by decide) rt.isLt ra.isLt imm.isLt rfl rfl
theorem ori48 (rt : Reg) (ra : Reg) (imm : BitVec 30) : Statement (.ori48 rt ra imm) :=
  fun _ _ => fits_encRI (L := 6) (p := 0) 30 (by decide) rt.isLt ra.isLt imm.isLt rfl rfl
theorem xori48 (rt : Reg) (ra : Reg) (imm : BitVec 30) : Statement (.xori48 rt ra imm) :=
  fun _ _ => fits_encRI (L := 6) (p := 0) 30 (by decide) rt.isLt ra.isLt imm.isLt rfl rfl
theorem jal48 (rt : Reg) (offset : BitVec 35) : Statement (.jal48 rt offset) :=
  fun _ _ => fits_encJ (L := 6) (p := 0) 35 (by decide) rt.isLt offset.isLt rfl rfl
theorem cas (rt : Reg) (ra : Reg) (rb : Reg) (rc : Reg) (disp : BitVec 12) : Statement (.cas rt ra rb rc disp) :=
  fun _ _ => fits_encCAS rt.isLt rc.isLt rb.isLt ra.isLt disp.isLt
theorem lb48 (rt : Reg) (ra : Reg) (disp : BitVec 27) : Statement (.lb48 rt ra disp) :=
  fun _ _ => fits_encRI (L := 6) (p := 3) 27 (by decide) rt.isLt ra.isLt disp.isLt rfl rfl
theorem lbu48 (rt : Reg) (ra : Reg) (disp : BitVec 27) : Statement (.lbu48 rt ra disp) :=
  fun _ _ => fits_encRI (L := 6) (p := 3) 27 (by decide) rt.isLt ra.isLt disp.isLt rfl rfl
theorem lh48 (rt : Reg) (ra : Reg) (disp : BitVec 27) : Statement (.lh48 rt ra disp) :=
  fun _ _ => fits_encRI (L := 6) (p := 3) 27 (by decide) rt.isLt ra.isLt disp.isLt rfl rfl
theorem lhu48 (rt : Reg) (ra : Reg) (disp : BitVec 27) : Statement (.lhu48 rt ra disp) :=
  fun _ _ => fits_encRI (L := 6) (p := 3) 27 (by decide) rt.isLt ra.isLt disp.isLt rfl rfl
theorem lw48 (rt : Reg) (ra : Reg) (disp : BitVec 27) : Statement (.lw48 rt ra disp) :=
  fun _ _ => fits_encRI (L := 6) (p := 3) 27 (by decide) rt.isLt ra.isLt disp.isLt rfl rfl
theorem sw48 (rs : Reg) (ra : Reg) (disp : BitVec 27) : Statement (.sw48 rs ra disp) :=
  fun _ _ => fits_encRI (L := 6) (p := 3) 27 (by decide) rs.isLt ra.isLt disp.isLt rfl rfl
theorem mf (rt : Reg) (spr : SprNo) : Statement (.mf rt spr) :=
  fun _ _ => fits_encJ (L := 6) (p := 24) 11 (by decide) rt.isLt spr.isLt rfl rfl
theorem mt (spr : SprNo) (ra : Reg) : Statement (.mt spr ra) :=
  fun _ _ => fits_encJ (L := 6) (p := 24) 11 (by decide) ra.isLt spr.isLt rfl rfl
theorem bfins (rt : Reg) (ra : Reg) (mb : BitNo) (me : BitNo) : Statement (.bfins rt ra mb me) :=
  fun _ _ => fits_encBF (by decide) (by decide) rt.isLt ra.isLt mb.isLt me.isLt rfl
theorem bfset (rt : Reg) (ra : Reg) (mb : BitNo) (me : BitNo) : Statement (.bfset rt ra mb me) :=
  fun _ _ => fits_encBF (by decide) (by decide) rt.isLt ra.isLt mb.isLt me.isLt rfl
theorem bfclr (rt : Reg) (ra : Reg) (mb : BitNo) (me : BitNo) : Statement (.bfclr rt ra mb me) :=
  fun _ _ => fits_encBF (by decide) (by decide) rt.isLt ra.isLt mb.isLt me.isLt rfl
theorem bfchg (rt : Reg) (ra : Reg) (mb : BitNo) (me : BitNo) : Statement (.bfchg rt ra mb me) :=
  fun _ _ => fits_encBF (by decide) (by decide) rt.isLt ra.isLt mb.isLt me.isLt rfl
theorem bfextu (rt : Reg) (ra : Reg) (mb : BitNo) (me : BitNo) : Statement (.bfextu rt ra mb me) :=
  fun _ _ => fits_encBF (by decide) (by decide) rt.isLt ra.isLt mb.isLt me.isLt rfl
theorem bfext (rt : Reg) (ra : Reg) (mb : BitNo) (me : BitNo) : Statement (.bfext rt ra mb me) :=
  fun _ _ => fits_encBF (by decide) (by decide) rt.isLt ra.isLt mb.isLt me.isLt rfl
theorem bfinsi (rt : Reg) (imm : BitVec 5) (mb : BitNo) (me : BitNo) : Statement (.bfinsi rt imm mb me) :=
  fun _ _ => fits_encBF (by decide) (by decide) rt.isLt imm.isLt mb.isLt me.isLt rfl
theorem addis (rt : Reg) (ra : Reg) (imm : BitVec 40) : Statement (.addis rt ra imm) :=
  fun _ _ => fits_encRI (L := 8) (p := 6) 40 (by decide) rt.isLt ra.isLt imm.isLt rfl rfl
theorem cmpiu (pt : PReg) (ra : Reg) (imm : BitVec 40) : Statement (.cmpiu pt ra imm) :=
  fun _ _ => fits_encRI (L := 8) (p := 6) 40 (by decide) (Nat.lt_trans pt.isLt (by decide)) ra.isLt imm.isLt rfl rfl
theorem andis (rt : Reg) (ra : Reg) (imm : BitVec 40) : Statement (.andis rt ra imm) :=
  fun _ _ => fits_encRI (L := 8) (p := 6) 40 (by decide) rt.isLt ra.isLt imm.isLt rfl rfl
theorem oris (rt : Reg) (ra : Reg) (imm : BitVec 40) : Statement (.oris rt ra imm) :=
  fun _ _ => fits_encRI (L := 8) (p := 6) 40 (by decide) rt.isLt ra.isLt imm.isLt rfl rfl
theorem xoris (rt : Reg) (ra : Reg) (imm : BitVec 40) : Statement (.xoris rt ra imm) :=
  fun _ _ => fits_encRI (L := 8) (p := 6) 40 (by decide) rt.isLt ra.isLt imm.isLt rfl rfl
theorem lc : Statement (.lc) := fun _ _ => fits_const (0x62) 4 (by decide)
theorem lcu : Statement (.lcu) := fun _ _ => fits_const (0x63) 4 (by decide)
theorem lvwar : Statement (.lvwar) := fun _ _ => fits_const (0x67) 4 (by decide)
theorem sb : Statement (.sb) := fun _ _ => fits_const (0x70) 4 (by decide)
theorem sc : Statement (.sc) := fun _ _ => fits_const (0x71) 4 (by decide)
theorem sh : Statement (.sh) := fun _ _ => fits_const (0x72) 4 (by decide)
theorem swcr : Statement (.swcr) := fun _ _ => fits_const (0x77) 4 (by decide)
theorem biti48 : Statement (.biti48) := fun _ _ => fits_const (0x8b) 6 (by decide)
theorem jsri : Statement (.jsri) := fun _ _ => fits_const (0x8d) 6 (by decide)
theorem lws : Statement (.lws) := fun _ _ => fits_const (0x8e) 6 (by decide)
theorem lcl : Statement (.lcl) := fun _ _ => fits_const (0x8f) 6 (by decide)
theorem lc48 : Statement (.lc48) := fun _ _ => fits_const (0xa2) 6 (by decide)
theorem lcu48 : Statement (.lcu48) := fun _ _ => fits_const (0xa3) 6 (by decide)
theorem lwar : Statement (.lwar) := fun _ _ => fits_const (0xa7) 6 (by decide)
theorem lvb : Statement (.lvb) := fun _ _ => fits_const (0xac) 6 (by decide)
theorem lvc : Statement (.lvc) := fun _ _ => fits_const (0xad) 6 (by decide)
theorem lvh : Statement (.lvh) := fun _ _ => fits_const (0xae) 6 (by decide)
theorem lvw : Statement (.lvw) := fun _ _ => fits_const (0xaf) 6 (by decide)
theorem sb48 : Statement (.sb48) := fun _ _ => fits_const (0xb0) 6 (by decide)
theorem sc48 : Statement (.sc48) := fun _ _ => fits_const (0xb1) 6 (by decide)
theorem sh48 : Statement (.sh48) := fun _ _ => fits_const (0xb2) 6 (by decide)
theorem swcr48 : Statement (.swcr48) := fun _ _ => fits_const (0xb7) 6 (by decide)
theorem llax : Statement (.llax) := fun _ _ => fits_const (0xb8) 6 (by decide)

end EncodingFits

end Sys2Proof.Laws
end

