-- ==== Sys2Proof/Laws/Step.lean ====
section
/-! SUPPORT. What the fetch answers, what a step leads to, and what raising before an instruction does. -/

namespace Sys2Proof.Machine

/-! ## Fetch -/

/-- The first two bytes of a list in memory, and the rest two addresses on. -/
theorem Memory.holdsBytes_cons {m : Memory} {a : Word} {b c : Byte} {bs : List Byte} (h : m.HoldsBytes a (b :: c :: bs)) :
    m.read a.toNat = some b ∧ m.read (a + 1).toNat = some c ∧ m.HoldsBytes (a + 2) bs := by
  refine ⟨by simpa using h 0 b rfl, by simpa using h 1 c rfl, fun k x hx => ?_⟩
  rw [← h (k + 2) x (by simpa using hx)]
  congr 2
  apply BitVec.eq_of_toNat_eq
  simp
  omega

/-- Two bytes load as a parcel. -/
theorem Memory.load_parcel {m : Memory} {a : Word} {b c : Byte} (h1 : m.read a.toNat = some b)
    (h2 : m.read (a + 1).toNat = some c) : m.load a 2 = some (b.toNat + 256 * c.toNat) := by
  simp at h2
  simp [Memory.load, h1, h2]

/-- The address of a later parcel. -/
theorem parcel_succ (a : Word) (j : Nat) : a + 2 + BitVec.ofNat 64 (2 * j) = a + BitVec.ofNat 64 (2 * (j + 1)) := by
  apply BitVec.eq_of_toNat_eq
  simp
  omega

/-- Parcels whose bytes are in memory and that are not refused are fetched as the number of those bytes. -/
theorem State.fetchParcels_of_holds (s : State) : ∀ (n : Nat) (a : Word) (bs : List Byte), bs.length = 2 * n →
    s.mem.HoldsBytes a bs → (∀ j < n, s.memFault (a + BitVec.ofNat 64 (2 * j)) 2 .fetch = none) →
    s.fetchParcels a n = .value (wordOfBytes bs) := by
  intro n
  induction n with
  | zero =>
    intro a bs hl _ _
    have : bs = [] := List.length_eq_zero_iff.1 (by omega)
    subst this
    rfl
  | succ n ih =>
    intro a bs hl hb hf
    match bs, hl with
    | b :: c :: bs, hl =>
      obtain ⟨h1, h2, h3⟩ := Memory.holdsBytes_cons hb
      have hf0 : s.memFault a 2 .fetch = none := by simpa using hf 0 (by omega)
      have hr := ih (a + 2) bs (by simp at hl; omega) h3 fun j hj => by rw [parcel_succ]; exact hf (j + 1) (by omega)
      simp only [State.fetchParcels, hf0, Memory.load_parcel h1 h2, hr]
      simp [wordOfBytes]
      omega

/-- The first refused parcel raises, once the parcels before it have been read. -/
theorem State.fetchParcels_refused (s : State) : ∀ (k n : Nat) (a : Word) (bs : List Byte), k < n → bs.length = 2 * k →
    s.mem.HoldsBytes a bs → (∀ j < k, s.memFault (a + BitVec.ofNat 64 (2 * j)) 2 .fetch = none) →
    s.memFault (a + BitVec.ofNat 64 (2 * k)) 2 .fetch ≠ none →
    s.fetchParcels a n = .raised .fetchFault (some (a + BitVec.ofNat 64 (2 * k))) := by
  intro k
  induction k with
  | zero =>
    intro n a bs hk hl _ _ hf
    match n, hk with
    | n + 1, _ =>
      simp at hf
      rw [State.fetchParcels, if_pos (by simpa [Option.isSome_iff_ne_none] using hf)]
      simp
  | succ k ih =>
    intro n a bs hk hl hb hf hh
    match n, hk, bs, hl with
    | n + 1, hk, b :: c :: bs, hl =>
      obtain ⟨h1, h2, h3⟩ := Memory.holdsBytes_cons hb
      have hf0 : s.memFault a 2 .fetch = none := by simpa using hf 0 (by omega)
      have hr := ih n (a + 2) bs (by omega) (by simp at hl; omega) h3
        (fun j hj => by rw [parcel_succ]; exact hf (j + 1) (by omega)) (by rw [parcel_succ]; exact hh)
      simp only [State.fetchParcels, hf0, Memory.load_parcel h1 h2, hr]
      rw [parcel_succ]
      simp

/-- The fetch at an even pc of bytes that make up the length their first byte gives answers their number. -/
theorem State.fetch_of_holds (s : State) (bs : List Byte) (b : Byte) (hp : s.pc.toNat % 2 = 0)
    (hb : s.mem.HoldsBytes s.pc bs) (h0 : bs[0]? = some b) (hl : bs.length = lengthOf b.toNat)
    (hf : ∀ k, 2 * k < bs.length → s.memFault (s.pc + BitVec.ofNat 64 (2 * k)) 2 .fetch = none) :
    s.fetch = .value (wordOfBytes bs) := by
  match bs, h0 with
  | b' :: c :: bs, h0 =>
    have : b' = b := by simpa using h0
    subst this
    have hp1 := State.fetchParcels_of_holds s 1 s.pc [b', c] rfl (fun k x hx => hb k x (by
      match k with
      | 0 => simpa using hx
      | 1 => simpa using hx
      | k + 2 => simp at hx)) (fun j hj => hf j (by simp; omega))
    have hw : wordOfBytes [b', c] % 256 = b'.toNat := by simp [wordOfBytes]; omega
    unfold State.fetch
    rw [if_neg (by simp [hp]), hp1]
    simp only [hw]
    exact State.fetchParcels_of_holds s _ s.pc _ (by rw [hl, lengthOf]; omega) hb
      (fun j hj => hf j (by rw [hl]; rw [lengthOf] at hj ⊢; omega))
  | [_], h0 => simp [lengthOf] at hl; omega

/-- An undisturbed state takes no interrupt. -/
theorem State.interrupt_of_undisturbed {s : State} (h : s.Undisturbed) : s.interrupt = none := by
  unfold State.interrupt
  rcases h with h | h <;> simp [h]

/-! ## The step -/

/-- A step leads to a state by an interrupt, by raising before an instruction, or by an instruction. -/
theorem step_next {s t : State} (h : step s = .next t) :
    (∃ vec, s.interrupt = some vec ∧ t = (s.takeInterrupt vec).endStep) ∨
      (∃ e addr u, s.raise e addr = .next u ∧ t = u.endStep) ∨
      ∃ i u, exec i s = .next u ∧ t = (if startsDelay i s then u else u.countdown).endStep := by
  unfold step cycle at h
  split at h
  · next vec hv => injection h with h; exact .inl ⟨vec, hv, h.symm⟩
  · split at h
    · unfold endOf at h
      split at h <;> try cases h
      next u hu => exact .inr (.inl ⟨_, _, u, hu, rfl⟩)
    · cases h
    · split at h
      · unfold runInstr endOf at h
        split at h <;> try cases h
        next u hu => exact .inr (.inr ⟨_, u, hu, rfl⟩)
      · unfold endOf at h
        split at h <;> try cases h
        next u hu => exact .inr (.inl ⟨_, _, u, hu, rfl⟩)

/-- What a step that raises before an instruction does, in the terms of claims. -/
theorem stepRaises_of_eq {s : State} {e : ExcKind} {addr : Option Word} (h : step s = endOf id (s.raise e addr)) :
    StepRaises s e addr := by
  refine ⟨fun a ha => ⟨(s.trapEnter s.pc a.vector (some a.code)).endStep, ?_, ?_,
    ⟨fun _ _ => rfl, fun _ _ => rfl, fun _ => rfl⟩, ?_⟩, fun hn => ?_⟩
  · rw [h, State.raise_of_trap addr ha]; rfl
  · simp only [State.endStep_pc, State.trapEnter_pc, State.vectorAddress]
    congr 1
  · constructor <;> rfl
  · rw [h, State.raise_of_none addr hn]; rfl

end Sys2Proof.Machine
end

