-- ==== Sys2Proof/Tests/Slice0.lean ====
section
/-! SUPPORT. The model's own tests. Decoding and one-step results come from the words, operands and results of
`95_test_vectors.md` or are worked out by hand from the rules; a witness for every statement that has hypotheses. -/

namespace Sys2Proof.Tests

open Sys2Proof.Machine

/-! ## WellFormed refuses each ill-formed term (R220, R300) -/

theorem test_wellFormed_beqs : (Instr.beqs 1 5).wellFormed = false ∧ (Instr.beqs 1 6).wellFormed = true := by decide

theorem test_wellFormed_bnes : (Instr.bnes 0 (-3)).wellFormed = false ∧ (Instr.bnes 0 (-4)).wellFormed = true := by decide

theorem test_wellFormed_jal16 : (Instr.jal16 1).wellFormed = false ∧ (Instr.jal16 20).wellFormed = true := by decide

theorem test_wellFormed_jal : (Instr.jal 1 0x101).wellFormed = false ∧ (Instr.jal 1 0x100).wellFormed = true := by decide

theorem test_wellFormed_jal48 : (Instr.jal48 1 (-1)).wellFormed = false ∧ (Instr.jal48 1 (-2)).wellFormed = true := by decide

theorem test_wellFormed_cas : (Instr.cas 14 4 5 6 16).wellFormed = false ∧ (Instr.cas 3 4 14 14 16).wellFormed = true := by
  decide

/-! ## Every constructor is decoded from a word of the spec or one written out from its format -/

/-- sections 2, 4 to 9. -/
theorem test_decodeShort1 :
    decodeTableWord 16 0x8300 = some (.addi16 3 (-16)) ∧
    decodeTableWord 16 0xF804 = some (.addiSp (-32)) ∧
    decodeTableWord 16 0xE30B = some (.ldi 3 (-1)) ∧
    decodeTableWord 16 0x230C = some (.add16 3 1) ∧
    decodeTableWord 16 0x230E = some (.and16 3 1) ∧
    decodeTableWord 16 0x230F = some (.or16 3 1) ∧
    decodeTableWord 16 0x1112 = some (.lw16 1 2 2) ∧
    decodeTableWord 16 0x1116 = some (.sw16 1 2 2) ∧
    decodeTableWord 16 0x2318 = some (.lwBp 3 4) ∧
    decodeTableWord 16 0x231C = some (.swBp 3 4) ∧
    decodeTableWord 16 0x0922 = some (.beqs 1 6) ∧
    decodeTableWord 16 0xF824 = some (.bnes 0 (-4)) ∧
    decodeTableWord 16 0x012A = some (.lwSp 1 2) ∧
    decodeTableWord 16 0x012E = some (.swSp 1 2) ∧
    decodeTableWord 16 0xFF31 = some (.int 511) ∧
    decodeTableWord 16 0x0234 = some (.addiBp 8) := by
  decide

/-- sections 2, 4 to 9. -/
theorem test_decodeShort2 :
    decodeTableWord 16 0x0538 = some (.jal16 20) := by
  decide

/-- sections 2 and 10. -/
theorem test_decodeSystem1 :
    decodeTableWord 16 0x0033 = some (.rts) ∧
    decodeTableWord 16 0x0133 = some (.rti) ∧
    decodeTableWord 16 0x0233 = some (.rtd) ∧
    decodeTableWord 16 0x0333 = some (.rte) ∧
    decodeTableWord 16 0x8033 = some (.sync) ∧
    decodeTableWord 16 0x8233 = some (.memdb) ∧
    decodeTableWord 16 0x8333 = some (.memsb) ∧
    decodeTableWord 16 0x9033 = some (.cli) ∧
    decodeTableWord 16 0x9133 = some (.sei) ∧
    decodeTableWord 16 0xE133 = some (.nopE1) ∧
    decodeTableWord 16 0xEA33 = some (.nopEA) ∧
    decodeTableWord 32 0x6C00045C = some (.cacheInvICache 4) ∧
    decodeTableWord 32 0x6C04045C = some (.cacheInvILine 4) ∧
    decodeTableWord 32 0x6C80045C = some (.cacheInvDCache 4) ∧
    decodeTableWord 32 0x6C84045C = some (.cacheInvDLine 4) ∧
    decodeTableWord 48 0x0000000683A8 = some (.mf 3 52) := by
  decide

/-- sections 2 and 10. -/
theorem test_decodeSystem2 :
    decodeTableWord 48 0x0000000684A9 = some (.mt 52 4) := by
  decide

/-- sections 4 to 8. -/
theorem test_decodeImmediate1 :
    decodeTableWord 32 0xFFFC6440 = some (.addi 3 4 (-1)) ∧
    decodeTableWord 32 0x00282441 = some (.cmpi 1 4 10) ∧
    decodeTableWord 32 0x03FC6448 = some (.andi 3 4 255) ∧
    decodeTableWord 32 0x04006449 = some (.ori 3 4 256) ∧
    decodeTableWord 32 0xFFFC644A = some (.xori 3 4 (-1)) ∧
    decodeTableWord 32 0x0004244B = some (.biti 1 4 1) ∧
    decodeTableWord 32 0xFFFC646C = some (.twoAddi 3 4 (-1)) ∧
    decodeTableWord 32 0x0020646D = some (.fourAddi 3 4 8) ∧
    decodeTableWord 32 0x7FFC646E = some (.eightAddi 3 4 8191) ∧
    decodeTableWord 32 0x8000646F = some (.sixteenAddi 3 4 (-8192)) ∧
    decodeTableWord 48 0x48D159E06480 = some (.addi48 3 4 0x12345678) ∧
    decodeTableWord 48 0x00061A802481 = some (.cmpi48 1 4 100000) ∧
    decodeTableWord 48 0x02F37BC02482 = some (.cmpil 1 4 0xBCDEF0) ∧
    decodeTableWord 48 0xFEF37BC06488 = some (.andi48 3 4 0x3FBCDEF0) ∧
    decodeTableWord 48 0x02AF37BC6389 = some (.ori48 3 3 0xABCDEF) ∧
    decodeTableWord 48 0x04000000648A = some (.xori48 3 4 0x1000000) := by
  decide

/-- sections 4 to 8. -/
theorem test_decodeImmediate2 :
    decodeTableWord 64 0x0048D159E26860E0 = some (.addis 3 0 0x123456789A) ∧
    decodeTableWord 64 0x0048D159E26824E1 = some (.cmpiu 1 4 0x123456789A) ∧
    decodeTableWord 64 0x03FFFFFFFC0064E8 = some (.andis 3 4 0xFFFFFFFF00) ∧
    decodeTableWord 64 0x00048D159E2460E9 = some (.oris 3 0 0x0123456789) ∧
    decodeTableWord 64 0x02000000000064EA = some (.xoris 3 4 0x8000000000) := by
  decide

/-- sections 4, 5, 7, 8. -/
theorem test_decodeRegister1 :
    decodeTableWord 32 0x000CA442 = some (.add 3 4 5) ∧
    decodeTableWord 32 0x008CA442 = some (.addo 3 4 5) ∧
    decodeTableWord 32 0x040CA442 = some (.sub 3 4 5) ∧
    decodeTableWord 32 0x048CA442 = some (.subo 3 4 5) ∧
    decodeTableWord 32 0x280CA442 = some (.xor 3 4 5) ∧
    decodeTableWord 32 0x0804A442 = some (.cmp 1 4 5) ∧
    decodeTableWord 32 0x200CA442 = some (.and 3 4 5) ∧
    decodeTableWord 32 0x240CA442 = some (.or 3 4 5) ∧
    decodeTableWord 32 0x300CA442 = some (.nand 3 4 5) ∧
    decodeTableWord 32 0x340CA442 = some (.nor 3 4 5) ∧
    decodeTableWord 32 0x0118A459 = some (.chk 2 4 5 6) ∧
    decodeTableWord 32 0x0518A459 = some (.chku 2 4 5 6) ∧
    decodeTableWord 32 0x188CA45C = some (.xnor 3 4 5) ∧
    decodeTableWord 32 0x1C0CA45C = some (.andc 3 4 5) ∧
    decodeTableWord 32 0x780CA45C = some (.div 3 4 5) ∧
    decodeTableWord 32 0x788CA45C = some (.divu 3 4 5) := by
  decide

/-- sections 4, 5, 7, 8. -/
theorem test_decodeRegister2 :
    decodeTableWord 32 0xA80CA45C = some (.shl 3 4 5) ∧
    decodeTableWord 32 0xAC0CA45C = some (.shru 3 4 5) ∧
    decodeTableWord 32 0xAC8CA45C = some (.shr 3 4 5) ∧
    decodeTableWord 32 0xB00CA45C = some (.twoAdd 3 4 5) ∧
    decodeTableWord 32 0xB40CA45C = some (.fourAdd 3 4 5) ∧
    decodeTableWord 32 0xB80CA45C = some (.eightAdd 3 4 5) ∧
    decodeTableWord 32 0xBC0CA45C = some (.sixteenAdd 3 4 5) ∧
    decodeTableWord 32 0x0404645C = some (.neg 3 4) ∧
    decodeTableWord 32 0x0408645C = some (.not 3 4) ∧
    decodeTableWord 32 0x040C645C = some (.abs 3 4) ∧
    decodeTableWord 32 0x042C645C = some (.com 3 4) := by
  decide

/-- section 6 and R212. -/
theorem test_decodeBranches :
    decodeTableWord 32 0x00200352 = some (.bf 3 8) ∧
    decodeTableWord 32 0xFFF02052 = some (.bt 0 (-4)) ∧
    decodeTableWord 32 0x00204152 = some (.beq 1 8) ∧
    decodeTableWord 32 0x000C6152 = some (.bne 1 3) ∧
    decodeTableWord 32 0x00208152 = some (.ble 1 8) ∧
    decodeTableWord 32 0x0020A152 = some (.bgt 1 8) ∧
    decodeTableWord 32 0x0020C152 = some (.bge 1 8) ∧
    decodeTableWord 32 0x8000E752 = some (.blt 7 (-8192)) ∧
    decodeTableWord 32 0x00210152 = some (.bleu 1 8) ∧
    decodeTableWord 32 0x00212152 = some (.bgtu 1 8) ∧
    decodeTableWord 32 0x00214152 = some (.bgeu 1 8) ∧
    decodeTableWord 32 0x7FFD6252 = some (.bltu 2 8191) ∧
    decodeTableWord 32 0x0011A052 = some (.bsig 0 4) ∧
    decodeTableWord 32 0x0020016B = some (.jal 1 0x100) ∧
    decodeTableWord 48 0x02468ACF019B = some (.jal48 1 0x12345678) ∧
    decodeTableWord 32 0x04FC255C = some (.jalr 1 5) := by
  decide

/-- section 9 and R113. -/
theorem test_decodeMemory1 :
    decodeTableWord 32 0xFFFC6460 = some (.lb 3 4 (-1)) ∧
    decodeTableWord 32 0x00146461 = some (.lbu 3 4 5) ∧
    decodeTableWord 32 0x00086464 = some (.lh 3 4 2) ∧
    decodeTableWord 32 0x00086465 = some (.lhu 3 4 2) ∧
    decodeTableWord 32 0x00206466 = some (.lw 3 4 8) ∧
    decodeTableWord 32 0x00206473 = some (.sw 3 4 8) ∧
    decodeTableWord 32 0x400CA45C = some (.lbux 3 4 5) ∧
    decodeTableWord 32 0x408CA45C = some (.lbx 3 4 5) ∧
    decodeTableWord 32 0x440CA45C = some (.lhux 3 4 5) ∧
    decodeTableWord 32 0x448CA45C = some (.lhx 3 4 5) ∧
    decodeTableWord 48 0x1FFFFFFC64A0 = some (.lb48 3 4 (-1)) ∧
    decodeTableWord 48 0x0000001464A1 = some (.lbu48 3 4 5) ∧
    decodeTableWord 48 0x0000000864A4 = some (.lh48 3 4 2) ∧
    decodeTableWord 48 0x0000000864A5 = some (.lhu48 3 4 2) ∧
    decodeTableWord 48 0x1FFFFFE064A6 = some (.lw48 3 4 (-8)) ∧
    decodeTableWord 48 0x1FFFFFE064B3 = some (.sw48 3 4 (-8)) := by
  decide

/-- section 9 and R113. -/
theorem test_decodeMemory2 :
    decodeTableWord 48 0x00010198A49D = some (.cas 3 4 5 6 16) := by
  decide

/-- section 7. -/
theorem test_decodeBitfield :
    decodeTableWord 48 0x00000F2064AA = some (.bfins 3 4 8 15) ∧
    decodeTableWord 48 0x0000471064AA = some (.bfset 3 4 4 7) ∧
    decodeTableWord 48 0x0000BF0064AA = some (.bfclr 3 4 0 63) ∧
    decodeTableWord 48 0x0000CF2064AA = some (.bfchg 3 4 8 15) ∧
    decodeTableWord 48 0x00000F2064AB = some (.bfextu 3 4 8 15) ∧
    decodeTableWord 48 0x00004F2064AB = some (.bfext 3 4 8 15) ∧
    decodeTableWord 48 0x00008F2075AB = some (.bfinsi 3 21 8 15) := by
  decide

/-- R324 and R325. -/
theorem test_decodeMapOnly1 :
    decodeTableWord 16 0xE433 = some (.mrk1) ∧
    decodeTableWord 16 0xE533 = some (.mrk2) ∧
    decodeTableWord 16 0xE633 = some (.mrk3) ∧
    decodeTableWord 16 0xE733 = some (.mrk4) ∧
    decodeTableWord 32 0x62 = some (.lc) ∧
    decodeTableWord 32 0x63 = some (.lcu) ∧
    decodeTableWord 32 0x67 = some (.lvwar) ∧
    decodeTableWord 32 0x70 = some (.sb) ∧
    decodeTableWord 32 0x71 = some (.sc) ∧
    decodeTableWord 32 0x72 = some (.sh) ∧
    decodeTableWord 32 0x77 = some (.swcr) ∧
    decodeTableWord 48 0x8B = some (.biti48) ∧
    decodeTableWord 48 0x8D = some (.jsri) ∧
    decodeTableWord 48 0x8E = some (.lws) ∧
    decodeTableWord 48 0x8F = some (.lcl) ∧
    decodeTableWord 48 0xA2 = some (.lc48) := by
  decide

/-- R324 and R325. -/
theorem test_decodeMapOnly2 :
    decodeTableWord 48 0xA3 = some (.lcu48) ∧
    decodeTableWord 48 0xA7 = some (.lwar) ∧
    decodeTableWord 48 0xAC = some (.lvb) ∧
    decodeTableWord 48 0xAD = some (.lvc) ∧
    decodeTableWord 48 0xAE = some (.lvh) ∧
    decodeTableWord 48 0xAF = some (.lvw) ∧
    decodeTableWord 48 0xB0 = some (.sb48) ∧
    decodeTableWord 48 0xB1 = some (.sc48) ∧
    decodeTableWord 48 0xB2 = some (.sh48) ∧
    decodeTableWord 48 0xB7 = some (.swcr48) ∧
    decodeTableWord 48 0xB8 = some (.llax) := by
  decide

/-- Reserved encodings are refused: 0Dh, 5Ch with `K = 0`, ADD with `sel3` 2, condition 12, FFh (sections 3 and 11). -/
theorem test_decodeReserved :
    decodeTableWord 16 0x000D = none ∧ decodeTableWord 32 0x000CA45C = none ∧ decodeTableWord 32 0x010CA442 = none ∧
    decodeTableWord 32 0x00218152 = none ∧ decodeTableWord 64 0xFFFFFFFFFFFFFFFF = none := by
  decide

/-- R5, log 23: the container under another byte, 5Ch then being reserved; and a byte that has another meaning keeps it. -/
theorem test_decodeContainer :
    decodeWord ⟨true, 0x7F⟩ 0xB00CA47F = .ok (.twoAdd 3 4 5) ∧
    decodeWord ⟨true, 0x7F⟩ 0xB00CA45C = .error (.reservedOpcode 0x5C) ∧
    decodeWord ⟨false, 0x7F⟩ 0xB00CA47F = .error (.provisionalOff 0x7F) ∧
    decodeWord ⟨true, 0x42⟩ 0x000CA442 = .ok (.add 3 4 5) := by
  decide

/-! ## One step -/

/-- A machine at 1000h after reset with some registers set. -/
def start (rs : List (Reg × Nat)) : State :=
  rs.foldl (fun s r => s.setReg r.1 (BitVec.ofNat 64 r.2)) { State.reset with pc := 0x1000 }

/-- With the flags of a compare register set. -/
def flags (s : State) (p : PReg) (eq lt ltu : Bool) : State := s.setPred p ⟨eq, lt, ltu⟩

/-- With bytes in memory. -/
def put (s : State) (a : Nat) (bs : List Byte) : State := { s with mem := s.mem.place (BitVec.ofNat 64 a) bs }

/-- The word 123456789ABCDEF0h as bytes. -/
def wordBytes : List Byte := [0xF0, 0xDE, 0xBC, 0x9A, 0x78, 0x56, 0x34, 0x12]

/-- What holds of the state after a step. -/
def after (r : Result) (p : State → Bool) : Bool :=
  match r with
  | .next t => p t
  | _ => false

/-- The exception of a terminal fault, with its address. -/
def raised (r : Result) : Option (ExcKind × Option Word) :=
  match r with
  | .fault (.exception e _ a) => some (e, a)
  | _ => none

/-- A machine whose platform vectors three kinds (section 12's example values for the first). -/
def vectored (s : State) : State :=
  { s with vba := 0x4000, platform := { s.platform with traps := [⟨.divideByZero, 7, 0x100⟩, ⟨.privilegeViolation, 8, 0x101⟩,
      ⟨.misalignedFetch, 9, 0x102⟩] } }

/-- With another pc. -/
def atPc (s : State) (a : Nat) : State := { s with pc := BitVec.ofNat 64 a }

/-- A machine in user mode. -/
def user (s : State) : State := { s with km := false, im := false, vba := 0x4000 }

theorem test_addi16 :
    after (step ((start [(3, 0x14)]).withFetchWord 16 0x8300)) (fun t => t.reg 3 == 4 && t.pc == 0x1002) = true := by
  decide

theorem test_addiSp :
    after (step ((start [(14, 0x1000)]).withFetchWord 16 0xF804)) (fun t => t.reg 14 == 0xfe0 && t.pc == 0x1002) = true := by
  decide

theorem test_ldi :
    after (step ((start []).withFetchWord 16 0x630B)) (fun t => t.reg 3 == 0xf && t.pc == 0x1002) = true := by
  decide

theorem test_add16 :
    after (step ((start [(3, 1), (9, 2)]).withFetchWord 16 0x230C)) (fun t => t.reg 3 == 3 && t.pc == 0x1002) = true := by
  decide

theorem test_and16 :
    after (step ((start [(3, 0xf), (9, 0x3c)]).withFetchWord 16 0x230E))
      (fun t => t.reg 3 == 0xc && t.pc == 0x1002) = true := by
  decide

theorem test_or16 :
    after (step ((start [(3, 1), (9, 6)]).withFetchWord 16 0x230F)) (fun t => t.reg 3 == 7 && t.pc == 0x1002) = true := by
  decide

theorem test_lw16 :
    after (step ((atPc (put (start [(10, 0x1000)]) 0x1008 wordBytes) 0x2000).withFetchWord 16 0x1112))
      (fun t => t.reg 9 == 0x123456789abcdef0 && t.pc == 0x2002) = true := by
  decide

theorem test_sw16 :
    after (step ((atPc (start [(9, 0x55), (10, 0x1000)]) 0x2000).withFetchWord 16 0x1116))
      (fun t => t.mem.load 0x1008 8 == some 0x55 && t.pc == 0x2002) = true := by
  decide

theorem test_lwBp :
    after (step ((atPc (put (start [(2, 0x1000)]) 0x1010 wordBytes) 0x2000).withFetchWord 16 0x2318))
      (fun t => t.reg 3 == 0x123456789abcdef0 && t.pc == 0x2002) = true := by
  decide

theorem test_beqs :
    after (step ((flags (start []) 1 true false false).withFetchWord 16 0x0922)) (fun t => t.pc == 0x1008) = true := by
  decide

theorem test_bnes : after (step ((start []).withFetchWord 16 0xF824)) (fun t => t.pc == 0xffe) = true := by decide

theorem test_lwSp :
    after (step ((atPc (put (start [(14, 0x2000)]) 0x2008 [4, 0x10, 0, 0, 0, 0, 0, 0]) 0x3000).withFetchWord 16 0x012A))
      (fun t => t.reg 1 == 0x1004 && t.pc == 0x3002) = true := by
  decide

theorem test_swSp :
    after (step ((atPc (start [(1, 0x1004), (14, 0x2000)]) 0x3000).withFetchWord 16 0x012E))
      (fun t => t.mem.load 0x2008 8 == some 0x1004 && t.pc == 0x3002) = true := by
  decide

theorem test_rts : after (step ((start [(1, 0x1004)]).withFetchWord 16 0x0033)) (fun t => t.pc == 0x1004) = true := by decide

theorem test_addiBp :
    after (step ((start [(2, 0x100)]).withFetchWord 16 0x0234)) (fun t => t.reg 2 == 0x108 && t.pc == 0x1002) = true := by
  decide

theorem test_jal16 :
    after (step ((start []).withFetchWord 16 0x0538)) (fun t => t.reg 1 == 0x1002 && t.pc == 0x1016) = true := by
  decide

theorem test_addi : after (step ((start [(4, 0xa)]).withFetchWord 32 0xFFFC6440)) (fun t => t.reg 3 == 9) = true := by decide

theorem test_cmpi :
    after (step ((start [(4, 3)]).withFetchWord 32 0x00282441)) (fun t => t.pred 1 == ⟨false, true, true⟩) = true := by
  decide

theorem test_andi :
    after (step ((start [(4, 0xa)]).withFetchWord 32 0x03FC6448)) (fun t => t.reg 3 == 0xa) = true := by
  decide

theorem test_ori :
    after (step ((start [(4, 0xa)]).withFetchWord 32 0x04006449)) (fun t => t.reg 3 == 0x10a) = true := by
  decide

theorem test_xori :
    after (step ((start [(4, 0xa)]).withFetchWord 32 0xFFFC644A)) (fun t => t.reg 3 == 0xfffffffffffffff5) = true := by
  decide

theorem test_biti :
    after (step ((start [(4, 7)]).withFetchWord 32 0x0004244B)) (fun t => t.pred 1 == ⟨false, false, true⟩) = true := by
  decide

theorem test_twoAddi :
    after (step ((start [(4, 0xa)]).withFetchWord 32 0xFFFC646C)) (fun t => t.reg 3 == 0x13) = true := by
  decide

theorem test_fourAddi :
    after (step ((start [(4, 0xa)]).withFetchWord 32 0x0020646D)) (fun t => t.reg 3 == 0x30) = true := by
  decide

theorem test_eightAddi :
    after (step ((start [(4, 0xa)]).withFetchWord 32 0x7FFC646E)) (fun t => t.reg 3 == 0x204f) = true := by
  decide

theorem test_sixteenAddi :
    after (step ((start [(4, 0xa)]).withFetchWord 32 0x8000646F)) (fun t => t.reg 3 == 0xffffffffffffe0a0) = true := by
  decide

theorem test_lb :
    after (step ((atPc (put (start [(4, 0x1001)]) 0x1000 [0x80]) 0x2000).withFetchWord 32 0xFFFC6460))
      (fun t => t.reg 3 == 0xffffffffffffff80) = true := by
  decide

theorem test_lbu :
    after (step ((atPc (put (start [(4, 0x1000)]) 0x1005 [0x80]) 0x2000).withFetchWord 32 0x00146461))
      (fun t => t.reg 3 == 0x80) = true := by
  decide

theorem test_lh :
    after (step ((atPc (put (start [(4, 0x1000)]) 0x1002 [0x34, 0x92]) 0x2000).withFetchWord 32 0x00086464))
      (fun t => t.reg 3 == 0xffffffffffff9234) = true := by
  decide

theorem test_lh_raises :
    raised (step ((atPc (start [(4, 0x1001)]) 0x2000).withFetchWord 32 0x00086464)) =
      some (.misalignedData, some 0x1003) := by
  decide

theorem test_lhu :
    after (step ((atPc (put (start [(4, 0x1000)]) 0x1002 [0x34, 0x92]) 0x2000).withFetchWord 32 0x00086465))
      (fun t => t.reg 3 == 0x9234) = true := by
  decide

theorem test_lw :
    after (step ((atPc (put (start [(4, 0x1000)]) 0x1008 wordBytes) 0x2000).withFetchWord 32 0x00206466))
      (fun t => t.reg 3 == 0x123456789abcdef0) = true := by
  decide

theorem test_lw_raises :
    raised (step ((atPc (start [(4, 0x1000)]) 0x2000).withFetchWord 32 0x00106466)) =
      some (.misalignedData, some 0x1004) := by
  decide

theorem test_sw :
    after (step ((atPc (start [(3, 0x123456789abcdef0), (4, 0x1000)]) 0x2000).withFetchWord 32 0x00206473))
      (fun t => t.mem.load 0x1008 8 == some 0x123456789abcdef0) = true := by
  decide

theorem test_add :
    after (step ((start [(4, 0xa), (5, 3)]).withFetchWord 32 0x000CA442)) (fun t => t.reg 3 == 0xd) = true := by
  decide

theorem test_addo :
    after (step ((start [(4, 0xa), (5, 3)]).withFetchWord 32 0x008CA442)) (fun t => t.reg 3 == 0xd) = true := by
  decide

theorem test_addo_raises :
    raised (step ((start [(4, 0x7fffffffffffffff), (5, 1)]).withFetchWord 32 0x008CA442)) =
      some (.integerOverflow, none) := by
  decide

theorem test_sub :
    after (step ((start [(4, 0xa), (5, 3)]).withFetchWord 32 0x040CA442)) (fun t => t.reg 3 == 7) = true := by
  decide

theorem test_subo :
    after (step ((start [(4, 0xa), (5, 3)]).withFetchWord 32 0x048CA442)) (fun t => t.reg 3 == 7) = true := by
  decide

theorem test_subo_raises :
    raised (step ((start [(4, 0x8000000000000000), (5, 1)]).withFetchWord 32 0x048CA442)) =
      some (.integerOverflow, none) := by
  decide

theorem test_xor :
    after (step ((start [(4, 0xa), (5, 3)]).withFetchWord 32 0x280CA442)) (fun t => t.reg 3 == 9) = true := by
  decide

theorem test_cmp :
    after (step ((start [(4, 0xffffffffffffffff), (5, 1)]).withFetchWord 32 0x0804A442))
      (fun t => t.pred 1 == ⟨false, true, false⟩) = true := by
  decide

theorem test_and :
    after (step ((start [(4, 0xa), (5, 3)]).withFetchWord 32 0x200CA442)) (fun t => t.reg 3 == 2) = true := by
  decide

theorem test_or :
    after (step ((start [(4, 0xa), (5, 3)]).withFetchWord 32 0x240CA442)) (fun t => t.reg 3 == 0xb) = true := by
  decide

theorem test_nand :
    after (step ((start [(4, 0xa), (5, 3)]).withFetchWord 32 0x300CA442)) (fun t => t.reg 3 == 0xfffffffffffffffd) = true := by
  decide

theorem test_nor :
    after (step ((start [(4, 0xa), (5, 3)]).withFetchWord 32 0x340CA442)) (fun t => t.reg 3 == 0xfffffffffffffff4) = true := by
  decide

theorem test_chku :
    after (step ((flags (start [(4, 0xffffffffffffffff), (5, 0), (6, 0xa)]) 2 true false false).withFetchWord 32 0x0518A459))
      (fun t => t.pred 2 == ⟨false, false, false⟩) = true := by
  decide

theorem test_bt : after (step ((start []).withFetchWord 32 0xFFF02052)) (fun t => t.pc == 0xffc) = true := by decide

theorem test_beq :
    after (step ((flags (start []) 1 true false false).withFetchWord 32 0x00204152)) (fun t => t.pc == 0x1014) = true := by
  decide

theorem test_blt :
    after (step ((flags (start []) 7 false true false).withFetchWord 32 0x8000E752))
      (fun t => t.pc == 0xffffffffffffd004) = true := by
  decide

theorem test_bltu :
    after (step ((flags (start []) 2 false false true).withFetchWord 32 0x7FFD6252)) (fun t => t.pc == 0x5002) = true := by
  decide

theorem test_jal :
    after (step ((start []).withFetchWord 32 0x0020016B)) (fun t => t.reg 1 == 0x1004 && t.pc == 0x1104) = true := by
  decide

theorem test_xnor :
    after (step ((start [(4, 0xa), (5, 3)]).withFetchWord 32 0x188CA45C)) (fun t => t.reg 3 == 0xfffffffffffffff6) = true := by
  decide

theorem test_andc :
    after (step ((start [(4, 0xa), (5, 3)]).withFetchWord 32 0x1C0CA45C)) (fun t => t.reg 3 == 8) = true := by
  decide

theorem test_lbux :
    after (step ((atPc (put (start [(4, 0x1000), (5, 3)]) 0x1003 [0xff]) 0x2000).withFetchWord 32 0x400CA45C))
      (fun t => t.reg 3 == 0xff) = true := by
  decide

theorem test_lbx :
    after (step ((atPc (put (start [(4, 0x1000), (5, 3)]) 0x1003 [0xff]) 0x2000).withFetchWord 32 0x408CA45C))
      (fun t => t.reg 3 == 0xffffffffffffffff) = true := by
  decide

theorem test_lhux :
    after (step ((atPc (put (start [(4, 0x1000), (5, 2)]) 0x1002 [0x34, 0x92]) 0x2000).withFetchWord 32 0x440CA45C))
      (fun t => t.reg 3 == 0x9234) = true := by
  decide

theorem test_lhx :
    after (step ((atPc (put (start [(4, 0x1000), (5, 2)]) 0x1002 [0x34, 0x92]) 0x2000).withFetchWord 32 0x448CA45C))
      (fun t => t.reg 3 == 0xffffffffffff9234) = true := by
  decide

theorem test_div :
    after (step ((start [(4, 0xa), (5, 3)]).withFetchWord 32 0x780CA45C)) (fun t => t.reg 3 == 3) = true := by
  decide

theorem test_div_raises :
    raised (step ((start [(4, 0xa), (5, 0)]).withFetchWord 32 0x780CA45C)) = some (.divideByZero, none) := by
  decide

theorem test_shl :
    after (step ((start [(4, 1), (5, 0x3f)]).withFetchWord 32 0xA80CA45C)) (fun t => t.reg 3 == 0x8000000000000000) = true := by
  decide

theorem test_shru :
    after (step ((start [(4, 0x8000000000000000), (5, 4)]).withFetchWord 32 0xAC0CA45C))
      (fun t => t.reg 3 == 0x800000000000000) = true := by
  decide

theorem test_shr :
    after (step ((start [(4, 0x8000000000000000), (5, 4)]).withFetchWord 32 0xAC8CA45C))
      (fun t => t.reg 3 == 0xf800000000000000) = true := by
  decide

theorem test_twoAdd :
    after (step ((start [(4, 0xa), (5, 3)]).withFetchWord 32 0xB00CA45C)) (fun t => t.reg 3 == 0x17) = true := by
  decide

theorem test_fourAdd :
    after (step ((start [(4, 0xa), (5, 3)]).withFetchWord 32 0xB40CA45C)) (fun t => t.reg 3 == 0x2b) = true := by
  decide

theorem test_eightAdd :
    after (step ((start [(4, 0xa), (5, 3)]).withFetchWord 32 0xB80CA45C)) (fun t => t.reg 3 == 0x53) = true := by
  decide

theorem test_sixteenAdd :
    after (step ((start [(4, 0xa), (5, 3)]).withFetchWord 32 0xBC0CA45C)) (fun t => t.reg 3 == 0xa3) = true := by
  decide

theorem test_neg :
    after (step ((start [(4, 0xa)]).withFetchWord 32 0x0404645C)) (fun t => t.reg 3 == 0xfffffffffffffff6) = true := by
  decide

theorem test_com :
    after (step ((start [(4, 0xa)]).withFetchWord 32 0x042C645C)) (fun t => t.reg 3 == 0xfffffffffffffff5) = true := by
  decide

theorem test_jalr :
    after (step ((start [(5, 0x2000)]).withFetchWord 32 0x04FC255C)) (fun t => t.reg 1 == 0x1004 && t.pc == 0x2000) = true := by
  decide

theorem test_addi48 :
    after (step ((start [(4, 0xa)]).withFetchWord 48 0x48D159E06480))
      (fun t => t.reg 3 == 0x12345682 && t.pc == 0x1006) = true := by
  decide

theorem test_cmpi48 :
    after (step ((start [(4, 0x186a0)]).withFetchWord 48 0x00061A802481))
      (fun t => t.pred 1 == ⟨true, false, false⟩ && t.pc == 0x1006) = true := by
  decide

theorem test_cmpil :
    after (step ((flags (start [(4, 0x123456789abcdef0)]) 1 true false false).withFetchWord 48 0x02F37BC02482))
      (fun t => t.pred 1 == ⟨true, false, false⟩ && t.pc == 0x1006) = true := by
  decide

theorem test_andi48 :
    after (step ((start [(4, 0xffffffffffffffff)]).withFetchWord 48 0xFEF37BC06488))
      (fun t => t.reg 3 == 0xffffffffffbcdef0 && t.pc == 0x1006) = true := by
  decide

theorem test_ori48 :
    after (step ((start [(3, 0x123456789000000)]).withFetchWord 48 0x02AF37BC6389))
      (fun t => t.reg 3 == 0x123456789abcdef && t.pc == 0x1006) = true := by
  decide

theorem test_xori48 :
    after (step ((start [(4, 0xa)]).withFetchWord 48 0x04000000648A))
      (fun t => t.reg 3 == 0x100000a && t.pc == 0x1006) = true := by
  decide

theorem test_jal48 :
    after (step ((start []).withFetchWord 48 0x02468ACF019B)) (fun t => t.reg 1 == 0x1006 && t.pc == 0x1234667e) = true := by
  decide

theorem test_lw48 :
    after (step ((atPc (put (start [(4, 0x1010)]) 0x1008 wordBytes) 0x2000).withFetchWord 48 0x1FFFFFE064A6))
      (fun t => t.reg 3 == 0x123456789abcdef0 && t.pc == 0x2006) = true := by
  decide

theorem test_bfins :
    after (step ((start [(3, 0xffffffffffffffff), (4, 0x1234)]).withFetchWord 48 0x00000F2064AA))
      (fun t => t.reg 3 == 0xffffffffffff34ff && t.pc == 0x1006) = true := by
  decide

theorem test_bfset :
    after (step ((start [(4, 0xf)]).withFetchWord 48 0x0000471064AA)) (fun t => t.reg 3 == 0xff && t.pc == 0x1006) = true := by
  decide

theorem test_bfclr :
    after (step ((start [(4, 0x123456789abcdef0)]).withFetchWord 48 0x0000BF0064AA))
      (fun t => t.reg 3 == 0 && t.pc == 0x1006) = true := by
  decide

theorem test_bfchg :
    after (step ((start [(4, 0x123456789abcdef0)]).withFetchWord 48 0x0000CF2064AA))
      (fun t => t.reg 3 == 0x123456789abc21f0 && t.pc == 0x1006) = true := by
  decide

theorem test_bfextu :
    after (step ((start [(4, 0x123456789abcdef0)]).withFetchWord 48 0x00000F2064AB))
      (fun t => t.reg 3 == 0xde && t.pc == 0x1006) = true := by
  decide

theorem test_bfext :
    after (step ((start [(4, 0x123456789abcdef0)]).withFetchWord 48 0x00004F2064AB))
      (fun t => t.reg 3 == 0xffffffffffffffde && t.pc == 0x1006) = true := by
  decide

theorem test_bfinsi :
    after (step ((start [(3, 0xffffffffffffffff)]).withFetchWord 48 0x00008F2075AB))
      (fun t => t.reg 3 == 0xffffffffffff15ff && t.pc == 0x1006) = true := by
  decide

theorem test_addis :
    after (step ((start []).withFetchWord 64 0x0048D159E26860E0))
      (fun t => t.reg 3 == 0x123456789a000000 && t.pc == 0x1008) = true := by
  decide

theorem test_cmpiu :
    after (step ((start [(4, 0x123456789abcdef0)]).withFetchWord 64 0x0048D159E26824E1))
      (fun t => t.pred 1 == ⟨true, false, false⟩ && t.pc == 0x1008) = true := by
  decide

theorem test_andis :
    after (step ((start [(4, 0x123456789abcdef0)]).withFetchWord 64 0x03FFFFFFFC0064E8))
      (fun t => t.reg 3 == 0x1234567800bcdef0 && t.pc == 0x1008) = true := by
  decide

theorem test_oris :
    after (step ((start []).withFetchWord 64 0x00048D159E2460E9))
      (fun t => t.reg 3 == 0x123456789000000 && t.pc == 0x1008) = true := by
  decide

theorem test_xoris :
    after (step ((start [(4, 0xa)]).withFetchWord 64 0x02000000000064EA))
      (fun t => t.reg 3 == 0x800000000000000a && t.pc == 0x1008) = true := by
  decide

/-! The forms below have no example in the spec's file, or one that needs a state of its own: results by hand from the rules. -/

theorem test_swBp :
    after (step ((atPc (start [(2, 0x1000), (3, 0x55)]) 0x2000).withFetchWord 16 0x231C))
      (fun t => t.mem.load 0x1010 8 == some 0x55 && t.pc == 0x2002) = true := by
  decide

theorem test_not :
    after (step ((start [(4, 0)]).withFetchWord 32 0x0408645C)) (fun t => t.reg 3 == 1) = true ∧
    after (step ((start [(3, 7), (4, 10)]).withFetchWord 32 0x0408645C)) (fun t => t.reg 3 == 0) = true := by
  decide

/-- Section 4: -7, and the most negative value, which is its own result. -/
theorem test_abs :
    after (step ((start [(4, 0xFFFFFFFFFFFFFFF9)]).withFetchWord 32 0x040C645C)) (fun t => t.reg 3 == 7) = true ∧
    after (step ((start [(4, 0x8000000000000000)]).withFetchWord 32 0x040C645C)) (fun t => t.reg 3 == 0x8000000000000000) =
      true := by
  decide

/-- Section 4: -10 / 3 is -3, and the one quotient that overflows. -/
theorem test_divSigned :
    after (step ((start [(4, 0xFFFFFFFFFFFFFFF6), (5, 3)]).withFetchWord 32 0x780CA45C))
      (fun t => t.reg 3 == 0xFFFFFFFFFFFFFFFD) = true ∧
    raised (step ((start [(4, 0x8000000000000000), (5, 0xFFFFFFFFFFFFFFFF)]).withFetchWord 32 0x780CA45C)) =
      some (.integerOverflow, none) := by
  decide

theorem test_divu :
    after (step ((start [(4, 0xFFFFFFFFFFFFFFFF), (5, 2)]).withFetchWord 32 0x788CA45C))
      (fun t => t.reg 3 == 0x7FFFFFFFFFFFFFFF) = true := by
  decide

/-- A zero divisor: the value is open, all else is not. -/
theorem test_divuByZero :
    after (step ((start [(4, 9), (5, 0)]).withFetchWord 32 0x788CA45C))
      (fun t => t.pc == 0x1004 && t.reg 4 == 9 && t.km && t.epc == 0) = true := by
  decide

/-- Section 8: only `eq` is written. -/
theorem test_chk :
    after (step ((flags (start [(4, 5), (5, 0), (6, 10)]) 2 false true true).withFetchWord 32 0x0118A459))
      (fun t => t.pred 2 == ⟨true, true, true⟩) = true ∧
    after (step ((flags (start [(4, 10), (5, 0), (6, 10)]) 2 true false false).withFetchWord 32 0x0118A459))
      (fun t => t.pred 2 == ⟨false, false, false⟩) = true := by
  decide

/-- R256: no flag is written where `eq` is clear. -/
theorem test_cmpilUnset :
    after (step ((flags (start [(4, 0x123456789ABCDEF0)]) 1 false true false).withFetchWord 48 0x02F37BC02482))
      (fun t => t.pred 1 == ⟨false, true, false⟩) = true := by
  decide

/-- The branches that the file gives no example of, one outcome each. -/
theorem test_branches :
    after (step ((flags (start []) 3 true true true).withFetchWord 32 0x00200352)) (fun t => t.pc == 0x1004) = true ∧
    after (step ((flags (start []) 1 false true true).withFetchWord 32 0x000C6152)) (fun t => t.pc == 0x100A) = true ∧
    after (step ((flags (start []) 1 true false false).withFetchWord 32 0x00208152)) (fun t => t.pc == 0x1014) = true ∧
    after (step ((flags (start []) 1 false false true).withFetchWord 32 0x0020A152)) (fun t => t.pc == 0x1014) = true ∧
    after (step ((flags (start []) 1 false true false).withFetchWord 32 0x0020C152)) (fun t => t.pc == 0x1004) = true ∧
    after (step ((flags (start []) 1 false false true).withFetchWord 32 0x00210152)) (fun t => t.pc == 0x1014) = true ∧
    after (step ((flags (start []) 1 true false false).withFetchWord 32 0x00212152)) (fun t => t.pc == 0x1004) = true ∧
    after (step ((flags (start []) 1 true true false).withFetchWord 32 0x00214152)) (fun t => t.pc == 0x1014) = true := by
  decide

/-- R213: the signal of this step's inputs. -/
theorem test_bsig :
    after (step (({ start [] with inputs := [⟨none, true, []⟩] } : State).withFetchWord 32 0x0011A052))
      (fun t => t.pc == 0x100C && t.inputs == []) = true ∧
    after (step ((start []).withFetchWord 32 0x0011A052)) (fun t => t.pc == 0x1004) = true := by
  decide

theorem test_lb48 :
    after (step ((atPc (put (start [(4, 0x1001)]) 0x1000 [0x80]) 0x2000).withFetchWord 48 0x1FFFFFFC64A0))
      (fun t => t.reg 3 == 0xFFFFFFFFFFFFFF80 && t.pc == 0x2006) = true := by
  decide

theorem test_lbu48 :
    after (step ((atPc (put (start [(4, 0x1000)]) 0x1005 [0x80]) 0x2000).withFetchWord 48 0x0000001464A1))
      (fun t => t.reg 3 == 0x80 && t.pc == 0x2006) = true := by
  decide

theorem test_lh48 :
    after (step ((atPc (put (start [(4, 0x1000)]) 0x1002 [0x34, 0x92]) 0x2000).withFetchWord 48 0x0000000864A4))
      (fun t => t.reg 3 == 0xFFFFFFFFFFFF9234 && t.pc == 0x2006) = true := by
  decide

theorem test_lhu48 :
    after (step ((atPc (put (start [(4, 0x1000)]) 0x1002 [0x34, 0x92]) 0x2000).withFetchWord 48 0x0000000864A5))
      (fun t => t.reg 3 == 0x9234 && t.pc == 0x2006) = true := by
  decide

theorem test_sw48 :
    after (step ((atPc (start [(3, 0x55), (4, 0x1010)]) 0x2000).withFetchWord 48 0x1FFFFFE064B3))
      (fun t => t.mem.load 0x1008 8 == some 0x55 && t.pc == 0x2006) = true := by
  decide

/-- R278: LW with target r0 makes no access, even a misaligned one. -/
theorem test_lwToZero :
    after (step ((start [(4, 0x1001)]).withFetchWord 32 0x00200466)) (fun t => t.pc == 0x1004 && t.reg 0 == 0) = true := by
  decide

/-- Section 9: the value found is the value expected, and it is not. -/
theorem test_cas :
    after (step ((atPc (put (start [(4, 0x1000), (5, 0), (6, 1)]) 0x1010 [0, 0, 0, 0, 0, 0, 0, 0]) 0x2000).withFetchWord 48
      0x00010198A49D)) (fun t => t.mem.load 0x1010 8 == some 1 && t.reg 3 == 0) = true ∧
    after (step ((atPc (put (start [(4, 0x1000), (5, 0), (6, 1)]) 0x1010 [7, 0, 0, 0, 0, 0, 0, 0]) 0x2000).withFetchWord 48
      0x00010198A49D)) (fun t => t.mem.load 0x1010 8 == some 7 && t.reg 3 == 7) = true := by
  decide

theorem test_cas_raises : raised (step ((start []).withFetchWord 48 0x00010718A49D)) = some (.illegalInstruction, none) := by
  decide

/-- Section 10: what only advances the pc, the map-only refusal, and reserved encodings. -/
theorem test_system :
    (∀ w ∈ [0x8033, 0x8233, 0x8333, 0xE133, 0xEA33], after (step ((start []).withFetchWord 16 w)) (fun t => t.pc == 0x1002)) ∧
    (∀ w ∈ [0x6C00045C, 0x6C04045C, 0x6C80005C, 0x6C84045C],
      after (step ((start []).withFetchWord 32 w)) (fun t => t.pc == 0x1004)) ∧
    raised (step ((start []).withFetchWord 32 0x6C08005C)) = some (.illegalInstruction, none) ∧
    raised (step ((start []).withFetchWord 32 0x010CA442)) = some (.illegalInstruction, none) := by
  decide

/-- Section 10: PREGS of P0 = (1,0,0), P1 = (0,1,1). -/
theorem test_mf :
    after (step ((flags (flags (start []) 0 true false false) 1 false true true).withFetchWord 48 0x0000000683A8))
      (fun t => t.reg 3 == 0x61 && t.pc == 0x1006) = true ∧
    after (step (({ start [] with bir := 51, lc := 0x1234 } : State).withFetchWord 48 0x00000007A3A8))
      (fun t => t.reg 3 == 0x1234) = true := by
  decide

theorem test_mf_raises :
    (∀ w ∈ [0x0000000003A8, 0x0000000783A8, 0x00000007E3A8, 0x000000FFE3A8],
      raised (step ((start []).withFetchWord 48 w)) = some (.illegalInstruction, none)) ∧
    raised (step (({ start [] with bir := 7 } : State).withFetchWord 48 0x00000007A3A8)) = some (.illegalInstruction, none) := by
  decide

theorem test_mt :
    after (step ((start [(4, 0x61)]).withFetchWord 48 0x0000000684A9))
      (fun t => t.pred 0 == ⟨true, false, false⟩ && t.pred 1 == ⟨false, true, true⟩ && t.pred 2 == ⟨false, false, false⟩) = true ∧
    after (step ((start [(4, 0x1234)]).withFetchWord 48 0x0000000664A9)) (fun t => t.lc == 0x1234 && t.pc == 0x1006) = true := by
  decide

theorem test_mt_raises : raised (step ((start [(3, 0)]).withFetchWord 48 0x0000000603A9)) = some (.illegalInstruction, none) := by
  decide

/-- Section 12: INT #2 at 1002h in user mode, and INT #511. -/
theorem test_int :
    after (step ((atPc (user (start [])) 0x1002).withFetchWord 16 0x0130))
      (fun t => t.epc == 0x1004 && !t.pkm && !t.pim && t.km && t.im && t.exc == 0 && t.pc == 0x4020) = true ∧
    after (step (({ start [] with vba := 0x4000 } : State).withFetchWord 16 0xFF31))
      (fun t => t.pc == 0x5FF0 && t.epc == 0x1002) = true := by
  decide

/-- Section 10: the three returns, in kernel mode and in user mode. -/
theorem test_returns :
    (∀ w ∈ [0x0133, 0x0233, 0x0333],
      after (step (({ start [] with epc := 0x1004, pkm := false, pim := false } : State).withFetchWord 16 w))
        (fun t => t.pc == 0x1004 && !t.km && !t.im) ∧
      raised (step ((user (start [])).withFetchWord 16 w)) = some (.privilegeViolation, none)) := by
  decide

theorem test_sei :
    after (step (({ start [] with im := false } : State).withFetchWord 16 0x9133)) (fun t => t.im && t.pc == 0x1002) = true ∧
    raised (step ((user (start [])).withFetchWord 16 0x9133)) = some (.privilegeViolation, none) := by
  decide

theorem test_cli :
    after (step (({ start [] with im := false } : State).withFetchWord 16 0x9033))
      (fun t => !t.im && t.cliPending == 0 && t.pc == 0x1002) = true ∧
    raised (step ((user (start [])).withFetchWord 16 0x9033)) = some (.privilegeViolation, none) := by
  decide

/-- R312: with two instructions to wait for, the first runs masked and leaves one, the second clears the mask. -/
theorem test_cliCount :
    after (step (({ start [] with cliPending := 2 } : State).withFetchWord 16 0x0000)) (fun t => t.im && t.cliPending == 1) =
      true ∧
    after (step (({ start [] with cliPending := 1 } : State).withFetchWord 16 0x0000)) (fun t => !t.im && t.cliPending == 0) =
      true := by
  decide

/-- Section 12: division by zero where the kind has a vector, and an interrupt. -/
theorem test_vectored :
    after (step ((atPc (vectored { start [(5, 0)] with km := false, im := false }) 0x1004).withFetchWord 32 0x780CA45C))
      (fun t => t.epc == 0x1004 && !t.pkm && !t.pim && t.km && t.im && t.exc == 0x100 && t.pc == 0x4070) = true ∧
    after (step (atPc { start [] with im := false, vba := 0x4000, exc := 5, inputs := [⟨some 40, false, []⟩] } 0x1008))
      (fun t => t.epc == 0x1008 && t.pc == 0x4280 && t.im && t.exc == 5) = true := by
  decide

/-- R364 (d): the branch to itself is idle. -/
theorem test_idle : ((start []).withFetchWord 32 0xFFF82052).Idle := rfl

theorem test_mapOnly :
    (match step ((start []).withFetchWord 32 0x70) with
     | .refused (.unsupported m) => m
     | _ => "") = "SB" := by
  decide


/-! ## Witnesses: for every statement with hypotheses, states and operands that meet them together -/

theorem next_of {r : Result} (h : after r (fun _ => true) = true) : ∃ t, r = .next t := by
  cases r <;> simp_all [after]

theorem holdsBytes_of {m : Memory} {a : Word} {bs : List Byte}
    (h : (List.range bs.length).all (fun k => m.read (a + BitVec.ofNat 64 k).toNat == bs[k]?) = true) : m.HoldsBytes a bs := by
  intro k b hk
  have hl : k < bs.length := (List.getElem?_eq_some_iff.1 hk).1
  have := List.all_eq_true.1 h k (List.mem_range.2 hl)
  rw [beq_iff_eq.1 this, hk]

theorem holds_of {m : Memory} {a : Word} {n v : Nat}
    (h : (decide (v < 256 ^ n) && (List.range n).all (fun k => m.read (a + BitVec.ofNat 64 k).toNat == some (byteOf v k))) = true) :
    m.Holds a n v := by
  simp only [Bool.and_eq_true, decide_eq_true_eq] at h
  exact ⟨h.1, fun k hk => beq_iff_eq.1 (List.all_eq_true.1 h.2 k (List.mem_range.2 hk))⟩

theorem noFault_of {s : State} {a : Word} (h : s.input.faults = []) (n : Nat) (k : AccessKind) : s.memFault a n k = none := by
  simp [State.memFault, h]

/-- Inputs whose oracle refuses one access. -/
def refusing (s : State) (a : Word) (n : Nat) (kind : AccessKind) (f : BusFault) : State :=
  { s with inputs := [⟨none, false, [⟨a, n, kind, f⟩]⟩] }

/-! ### Decoding -/

/-- The container at its own byte, and at the first and the last byte that it can have. -/
theorem witness_DecodeInvertsEncode :
    ∀ b ∈ ([0x5C, 0x43, 0x7F] : List Byte), ∃ p : Encodings, p.provisional = true ∧ p.containerFree = true ∧ p.opcL24 = b := by
  intro b hb
  simp only [List.mem_cons, List.not_mem_nil, or_false] at hb
  rcases hb with rfl | rfl | rfl
  · exact ⟨Config.encodings, by decide⟩
  · exact ⟨⟨true, 0x43⟩, by decide⟩
  · exact ⟨⟨true, 0x7F⟩, by decide⟩

theorem witness_BytesRoundTrip : Config.encodings.provisional = true ∧ Config.encodings.containerFree = true := by decide

/-- The shortest and the longest length, with bytes left over. -/
theorem witness_LengthFromOpcode :
    decodeBytes Config.encodings [0x00, 0x00, 0xAA] = .ok (.addi16 0 0, [0xAA]) ∧
    decodeBytes Config.encodings [0xE0, 0x60, 0x68, 0xE2, 0x59, 0xD1, 0x48, 0x00] = .ok (.addis 3 0 0x123456789A, []) := by
  decide

/-- For each clause, in order, its first bit and width with two different words that agree outside those bits, and the function
field that a clause asks for. -/
theorem witness_UnusedBitsIgnored :
    (([(0x42, 21, 5, 0x0804A442, 0x0BE4A442), (0x42, 23, 3, 0x200CA442, 0x238CA442), (0x4B, 16, 2, 0x0004244B, 0x0007244B),
      (0x41, 16, 2, 0x00282441, 0x002B2441), (0x52, 17, 1, 0x00204152, 0x00224152), (0x52, 11, 2, 0x00204152, 0x00205952),
      (0x5C, 24, 2, 0xB00CA45C, 0xB30CA45C), (0x5C, 13, 5, 0x6C04045C, 0x6C07E45C), (0x81, 16, 2, 0x061A802481, 0x061A832481),
      (0x82, 16, 2, 0x02F37BC02482, 0x02F37BC32482), (0x82, 42, 6, 0x02F37BC02482, 0xFEF37BC02482),
      (0x9D, 40, 8, 0x00010198A49D, 0xFF010198A49D), (0xA0, 45, 3, 0x64A0, 0xE000000064A0), (0xB3, 45, 3, 0x64B3, 0xE000000064B3),
      (0xA8, 24, 24, 0x0000000683A8, 0xABCDEF0683A8), (0xA9, 24, 24, 0x0000000684A9, 0xABCDEF0684A9),
      (0xAA, 32, 16, 0x00000F2064AA, 0xFFFF0F2064AA), (0xAB, 32, 16, 0x00000F2064AB, 0xFFFF0F2064AB),
      (0xE0, 58, 6, 0x0048D159E26860E0, 0xFC48D159E26860E0), (0xEA, 58, 6, 0x02000000000064EA, 0xFE000000000064EA),
      (0xE1, 16, 2, 0x0048D159E26824E1, 0x0048D159E26B24E1)] : List (Nat × Nat × Nat × Nat × Nat)).all fun x =>
        x.2.2.2.1 % 256 == x.1 && x.2.2.2.2 % 256 == x.1 && x.2.2.2.1 != x.2.2.2.2 &&
        x.2.2.2.1 % 2 ^ x.2.1 == x.2.2.2.2 % 2 ^ x.2.1 &&
        x.2.2.2.1 / 2 ^ (x.2.1 + x.2.2.1) == x.2.2.2.2 / 2 ^ (x.2.1 + x.2.2.1)) = true ∧
    field 0x0804A442 26 6 = 0x02 ∧ field 0x200CA442 26 6 = 0x08 ∧ field 0x340CA442 26 6 = 0x0D ∧ field 0x6C04045C 26 6 = 0x1B ∧
    Config.encodings.opcL24.toNat = 0x5C ∧ Config.encodings.containerFree = true := by
  decide

theorem witness_SystemGroup : (0x00 < 256 ∧ 0xFF < 256) ∧ decodeWord Config.encodings (0x33 + 256 * 0xEA) = .ok .nopEA ∧
    decodeWord Config.encodings (0x33 + 256 * 0xFF) = .error (.reservedFunction 0x33 0xFF) := by
  decide

/-! ### The step -/

/-- A two-byte and an eight-byte instruction, the second one ending at the top of the address space. -/
theorem witness_StepRunsDecodedInstruction :
    (∃ (s : State) (bs : List Byte) (i : Instr), s.Undisturbed ∧ s.pc.toNat % 2 = 0 ∧ s.mem.HoldsBytes s.pc bs ∧
      (∀ k, 2 * k < bs.length → s.memFault (s.pc + BitVec.ofNat 64 (2 * k)) 2 .fetch = none) ∧
      decodeBytes s.platform.encodings bs = .ok (i, [])) ∧
    (∃ (s : State) (bs : List Byte) (i : Instr), s.Undisturbed ∧ s.pc.toNat % 2 = 0 ∧ s.mem.HoldsBytes s.pc bs ∧
      (∀ k, 2 * k < bs.length → s.memFault (s.pc + BitVec.ofNat 64 (2 * k)) 2 .fetch = none) ∧
      decodeBytes s.platform.encodings bs = .ok (i, []) ∧ s.im = false ∧ bs.length = 8) := by
  refine ⟨⟨(start []).withFetchWord 16 0x630B, [0x0B, 0x63], .ldi 3 15, .inl rfl, by decide, holdsBytes_of (by decide),
      fun _ _ => noFault_of rfl _ _, by decide⟩,
    ⟨(atPc { start [] with im := false } 0xFFFFFFFFFFFFFFF8).withFetchWord 64 0x0048D159E26860E0,
      [0xE0, 0x60, 0x68, 0xE2, 0x59, 0xD1, 0x48, 0x00], .addis 3 0 0x123456789A, .inr rfl, by decide, holdsBytes_of (by decide),
      fun _ _ => noFault_of rfl _ _, by decide, rfl, rfl⟩⟩

/-- A fault, a refusal, and a next state with no CLI pending, with one that reaches zero, and at a CLI that draws. -/
theorem witness_StepBookkeeping :
    exec (.div 3 4 0) (start []) = .fault (.exception .divideByZero 0x1000 none) ∧
    exec .sb (start []) = .refused (.unsupported "SB") ∧
    (∃ t, exec (.ldi 3 1) (start []) = .next t ∧ t.cliPending = 0) ∧
    (∃ t, exec (.ldi 3 1) { start [] with cliPending := 1 } = .next t ∧ t.cliPending = 1) ∧
    (∃ t, exec .cli (start []) = .next t ∧ (start []).km = true ∧ (start []).im = true) :=
  ⟨rfl, rfl, ⟨_, rfl, rfl⟩, ⟨_, rfl, rfl⟩, ⟨_, rfl, rfl, rfl⟩⟩

theorem witness_InterruptTaken :
    ∃ s : State, s.im = false ∧ s.input.irq = some 0 :=
  ⟨{ start [] with im := false, inputs := [⟨some 0, false, []⟩] }, rfl, rfl⟩

/-- An odd pc; the first and the last parcel of an eight-byte instruction refused; a reserved encoding. -/
theorem witness_FetchRaises :
    (∃ s : State, s.Undisturbed ∧ s.pc.toNat % 2 = 1) ∧
    (∃ s : State, s.Undisturbed ∧ s.pc.toNat % 2 = 0 ∧ s.mem.HoldsBytes s.pc [] ∧
      s.memFault (s.pc + BitVec.ofNat 64 (2 * 0)) 2 .fetch ≠ none) ∧
    (∃ (s : State) (bs : List Byte), s.Undisturbed ∧ s.pc.toNat % 2 = 0 ∧ bs.length = 2 * 3 ∧ s.mem.HoldsBytes s.pc bs ∧
      (∀ j < 3, s.memFault (s.pc + BitVec.ofNat 64 (2 * j)) 2 .fetch = none) ∧
      s.memFault (s.pc + BitVec.ofNat 64 (2 * 3)) 2 .fetch ≠ none ∧
      ∃ b, bs[0]? = some b ∧ 2 * 3 < 2 * (b.toNat / 64 + 1)) ∧
    (∃ (s : State) (bs : List Byte), s.Undisturbed ∧ s.pc.toNat % 2 = 0 ∧ s.mem.HoldsBytes s.pc bs ∧
      (∃ b, bs[0]? = some b ∧ bs.length = 2 * (b.toNat / 64 + 1)) ∧
      (∀ k, 2 * k < bs.length → s.memFault (s.pc + BitVec.ofNat 64 (2 * k)) 2 .fetch = none) ∧
      decodeBytes s.platform.encodings bs = .error (.reservedOpcode 0x0D)) := by
  refine ⟨⟨atPc (start []) 0x1001, .inl rfl, by decide⟩,
    ⟨refusing (start []) 0x1000 2 .fetch .tlb, .inl rfl, by decide, holdsBytes_of rfl, by decide⟩,
    ⟨refusing ((start []).withFetchWord 64 0x0048D159E26860E0) 0x1006 2 .fetch .dbe, [0xE0, 0x60, 0x68, 0xE2, 0x59, 0xD1],
      .inl rfl, by decide, rfl, holdsBytes_of (by decide), by decide, by decide, 0xE0, rfl, by decide⟩,
    ⟨(start []).withFetchWord 16 0x000D, [0x0D, 0x00], .inl rfl, by decide, holdsBytes_of (by decide), ⟨0x0D, rfl, by decide⟩,
      fun _ _ => noFault_of rfl _ _, by decide⟩⟩

/-! ### Invariants -/

/-- With no CLI pending and with one about to clear the mask. -/
theorem witness_StepKeepsOk :
    (∃ s t : State, s.Ok ∧ step s = .next t) ∧ (∃ s t : State, s.Ok ∧ s.cliPending = 1 ∧ step s = .next t) := by
  obtain ⟨t, h⟩ := next_of (r := step ((start []).withFetchWord 16 0x630B)) (by decide)
  obtain ⟨u, g⟩ := next_of (r := step (({ start [] with cliPending := 1 } : State).withFetchWord 16 0x630B)) (by decide)
  exact ⟨⟨_, t, ⟨by decide, by decide, fun h => absurd rfl h⟩, h⟩, ⟨_, u, ⟨by decide, by decide, fun _ => rfl⟩, rfl, g⟩⟩

/-- On an instruction and on the return from a trap. -/
theorem witness_StepKeepsKernelLocked :
    (∃ s t : State, s.KernelLocked ∧ step s = .next t) ∧ (∃ s t : State, s.KernelLocked ∧ exec .rti s = .next t) := by
  obtain ⟨t, h⟩ := next_of (r := step ((start []).withFetchWord 16 0x630B)) (by decide)
  exact ⟨⟨_, t, ⟨rfl, rfl⟩, h⟩, ⟨start [], _, ⟨rfl, rfl⟩, rfl⟩⟩

theorem witness_StepKeepsPlatform :
    ∃ s t : State, s.inputs ≠ [] ∧ step s = .next t := by
  obtain ⟨t, h⟩ :=
    next_of (r := step (({ start [] with inputs := [⟨none, true, []⟩] } : State).withFetchWord 16 0x630B)) (by decide)
  exact ⟨_, t, by decide, h⟩

/-- An instruction, INT, and an instruction that raises. -/
theorem witness_UserModeConfined :
    ∃ s : State, s.km = false ∧ (∃ t, exec (.ldi 3 1) s = .next t ∧ t.km = false) ∧
      (∃ t, exec (.int 511) s = .next t ∧ t.km = true) ∧ (∃ t, exec .rti s = .next t ∧ t.km = true) :=
  ⟨vectored (user (start [])), rfl, ⟨_, rfl, rfl⟩, ⟨_, rfl, rfl⟩, ⟨_, rfl, rfl⟩⟩

theorem witness_MemoryWriters : ∃ s t, exec (.ldi 3 1) s = .next t ∧ storesMemory (.ldi 3 1) = false :=
  ⟨start [], _, rfl, rfl⟩

/-- One instruction of each clause. -/
theorem witness_CompareRegisterWriters :
    (∃ s t, exec (.ldi 3 1) s = .next t ∧ writesCompareRegister (.ldi 3 1) = false) ∧
    (∃ s t, exec (.chk 7 4 5 6) s = .next t) ∧ (∃ s t, exec (.chku 0 4 5 6) s = .next t) ∧
    (∃ s t, exec (.cmpil 1 4 0) s = .next t ∧ (s.pred 1).eq = false) :=
  ⟨⟨start [], _, rfl, rfl⟩, ⟨start [], _, rfl⟩, ⟨start [], _, rfl⟩, ⟨start [], _, rfl, rfl⟩⟩

/-- An instruction that goes on, and one that enters a trap. -/
theorem witness_PcAdvances :
    (∃ s t, exec (.mf 3 51) s = .next t ∧ transfersControl (.mf 3 51) = false) ∧
    (∃ s t, exec (.div 3 4 0) s = .next t ∧ transfersControl (.div 3 4 0) = false ∧ t.pc = 0x4070) :=
  ⟨⟨start [], _, rfl, rfl⟩, ⟨vectored (start []), _, rfl, rfl, by decide⟩⟩

/-- The read of TICK, INT and a trap entry, none of them MT. -/
theorem witness_SpecialRegisterWriters :
    (∃ s t, exec (.mf 3 50) s = .next t ∧ ∀ n ra, Instr.mf 3 50 ≠ .mt n ra) ∧
    (∃ s t, exec (.int 0) s = .next t ∧ ∀ n ra, Instr.int 0 ≠ .mt n ra) ∧
    (∃ s t, exec (.div 3 4 0) s = .next t ∧ t.exc = 0x100 ∧ ∀ n ra, Instr.div 3 4 0 ≠ .mt n ra) :=
  ⟨⟨start [], _, rfl, nofun⟩, ⟨start [], _, rfl, nofun⟩, ⟨vectored (start []), _, rfl, rfl, nofun⟩⟩

/-- A jump and an instruction that only advances, at even pcs, the second one before the wrap. -/
theorem witness_PcStaysEven :
    (∃ s t, (Instr.jal 1 0x100).wellFormed = true ∧ targetIsData (.jal 1 0x100) = false ∧ s.pc.toNat % 2 = 0 ∧
      exec (.jal 1 0x100) s = .next t) ∧
    (∃ s t, (Instr.ldi 3 1).wellFormed = true ∧ targetIsData (.ldi 3 1) = false ∧ s.pc.toNat % 2 = 0 ∧
      exec (.ldi 3 1) s = .next t ∧ t.pc = 0) :=
  ⟨⟨start [], _, rfl, rfl, by decide, rfl⟩, ⟨atPc (start []) 0xFFFFFFFFFFFFFFFE, _, rfl, rfl, by decide, rfl, by decide⟩⟩

/-! ### Exceptions -/

/-- On a platform that vectors the kind, and on one that does not. -/
theorem witness_TrapsMirrorFaults :
    (∃ s : State, exec (.div 3 4 0) { s with platform := { s.platform with traps := [] } } =
      .fault (.exception .divideByZero 0x1000 none) ∧ ∃ a, s.platform.trap .divideByZero = some a) ∧
    (∃ s : State, exec (.div 3 4 0) { s with platform := { s.platform with traps := [] } } =
      .fault (.exception .divideByZero 0x1000 none) ∧ s.platform.trap .divideByZero = none) :=
  ⟨⟨vectored (start []), rfl, _, rfl⟩, ⟨start [], rfl, rfl⟩⟩

/-- A trap, INT from user mode, and a trap inside a trap. -/
theorem witness_TrapReturnUndoesTrap :
    (∃ s t : State, s.raise .divideByZero none = .next t) ∧
    (∃ s t : State, s.km = false ∧ exec (.int 2) s = .next t) ∧
    (∃ s t u : State, s.raise .divideByZero none = .next t ∧ t.raise .misalignedFetch none = .next u) :=
  ⟨⟨vectored (start []), _, rfl⟩, ⟨user (start []), _, rfl, rfl⟩, ⟨vectored (start []), _, _, rfl, rfl⟩⟩

theorem witness_CauseCodesTellKindsApart :
    ∃ s t u : State, s.platform.CodesDiffer ∧ s.raise .divideByZero none = .next t ∧
      s.raise .divideByZero (some 0) = .next u ∧ t.exc = u.exc := by
  refine ⟨vectored (start []), _, _, ?_, rfl, rfl, rfl⟩
  intro e f a b he hf
  revert he hf
  cases e <;> cases f <;> simp [vectored, Platform.trap] <;> (rintro rfl rfl; decide)

theorem witness_TrapInstructions : ∃ s : State, s.km = true := ⟨start [], rfl⟩

/-! ### Arithmetic and logical -/

theorem witness_AddSubRegister :
    (field 0x000CA442 0 8 = 0x42 ∧ field 0x000CA442 26 6 = 0x00 ∧ field 0x000CA442 23 3 = 0) ∧
    (field 0x040CA442 0 8 = 0x42 ∧ field 0x040CA442 26 6 = 0x01 ∧ field 0x040CA442 23 3 = 0) := by
  decide

/-- The largest and the smallest result that fit. -/
theorem witness_OverflowCheckedSums :
    (∃ s : State, -2 ^ 63 ≤ (s.reg 4).toInt + (s.reg 0).toInt ∧ (s.reg 4).toInt + (s.reg 0).toInt < 2 ^ 63 ∧
      (s.reg 4).toInt = 2 ^ 63 - 1) ∧
    (∃ s : State, -2 ^ 63 ≤ (s.reg 4).toInt - (s.reg 0).toInt ∧ (s.reg 4).toInt - (s.reg 0).toInt < 2 ^ 63 ∧
      (s.reg 4).toInt = -2 ^ 63) :=
  ⟨⟨start [(4, 0x7FFFFFFFFFFFFFFF)], by decide⟩, ⟨start [(4, 0x8000000000000000)], by decide⟩⟩

/-- The most negative dividend by another divisor than -1, and a zero divisor. -/
theorem witness_Divides :
    (∃ s : State, s.reg 5 ≠ 0 ∧ ¬ ((s.reg 4).toInt = -2 ^ 63 ∧ (s.reg 5).toInt = -1) ∧ (s.reg 4).toInt = -2 ^ 63) ∧
    (∃ s : State, s.reg 5 = 0) :=
  ⟨⟨start [(4, 0x8000000000000000), (5, 1)], by decide⟩, ⟨start [], by decide⟩⟩

/-- The first sum and difference that do not fit, the overflowing quotient, the zero divisor. -/
theorem witness_ArithmeticRaises :
    (∃ s : State, ¬ (-2 ^ 63 ≤ (s.reg 4).toInt + (s.reg 5).toInt ∧ (s.reg 4).toInt + (s.reg 5).toInt < 2 ^ 63) ∧
      (s.reg 4).toInt + (s.reg 5).toInt = 2 ^ 63) ∧
    (∃ s : State, ¬ (-2 ^ 63 ≤ (s.reg 4).toInt - (s.reg 5).toInt ∧ (s.reg 4).toInt - (s.reg 5).toInt < 2 ^ 63) ∧
      (s.reg 4).toInt - (s.reg 5).toInt = -2 ^ 63 - 1) ∧
    (∃ s : State, (s.reg 4).toInt = -2 ^ 63 ∧ (s.reg 5).toInt = -1) ∧ (∃ s : State, (s.reg 0).toInt = 0 ∧ s.reg 4 ≠ 0) :=
  ⟨⟨start [(4, 0x7FFFFFFFFFFFFFFF), (5, 1)], by decide⟩, ⟨start [(4, 0x8000000000000000), (5, 1)], by decide⟩,
    ⟨start [(4, 0x8000000000000000), (5, 0xFFFFFFFFFFFFFFFF)], by decide⟩, ⟨start [(4, 1)], by decide⟩⟩

theorem witness_LogicalRegister :
    (field 0x200CA442 0 8 = 0x42 ∧ field 0x200CA442 26 6 = 0x08) ∧ (field 0x300CA442 0 8 = 0x42 ∧ field 0x300CA442 26 6 = 0x0C) ∧
    (field 0x340CA442 0 8 = 0x42 ∧ field 0x340CA442 26 6 = 0x0D) ∧
    (field 0x280CA442 0 8 = 0x42 ∧ field 0x280CA442 26 6 = 0x0A ∧ field 0x280CA442 23 3 = 0) := by
  decide

theorem witness_FullWidthConstants : (1 : Reg) ≠ 0 ∧ (31 : Reg) ≠ 0 := by decide

/-! ### Branches, bit fields, compares -/

theorem witness_BranchConditions :
    (field 0x00218152 0 8 = 0x52 ∧ field 0x00218152 13 4 = 12) ∧ (field 0x0021C152 0 8 = 0x52 ∧ field 0x0021C152 13 4 = 14) ∧
    (field 0x0021E152 0 8 = 0x52 ∧ field 0x0021E152 13 4 = 15) := by
  decide

/-- One bit, the whole word, and the bounds the wrong way round by one. -/
theorem witness_BitFields : ((63 : BitNo) ≤ 63 ∧ (0 : BitNo) ≤ 63) ∧ (62 : BitNo) < 63 := by decide

theorem witness_CompareRegister : field 0x0804A442 0 8 = 0x42 ∧ field 0x0804A442 26 6 = 0x02 := by decide

/-- CMPIL where `eq` is set and where it is clear. -/
theorem witness_CompareImmediate : (∃ s : State, (s.pred 7).eq = true) ∧ (∃ s : State, (s.pred 0).eq = false) :=
  ⟨⟨flags (start []) 7 true false false, by decide⟩, ⟨start [], by decide⟩⟩

theorem witness_BoundsChecks :
    (field 0x0118A459 0 8 = 0x59 ∧ field 0x0118A459 26 6 = 0) ∧ (field 0x0518A459 0 8 = 0x59 ∧ field 0x0518A459 26 6 = 1) := by
  decide

/-! ### Memory -/

/-- Every form's address is 0 where registers and displacements are zero; there, and in the last word of the address space, each
width holds a number, is aligned and is not refused. -/
theorem witness_LoadsComplete :
    (∃ s : State, s.reg 4 + sext (0 : BitVec 14) = 0 ∧ s.reg 4 + sext (0 : BitVec 27) = 0 ∧ s.reg 4 + s.reg 5 = 0 ∧
      s.reg (reg3 0) + scaledDisp (0 : BitVec 4) = 0 ∧ s.reg 2 + scaledDisp (0 : BitVec 5) = 0 ∧
      s.reg 14 + scaledDisp (0 : BitVec 5) = 0 ∧
      s.mem.Holds 0 1 0xF0 ∧ s.mem.Holds 0 2 0xDEF0 ∧ s.mem.Holds 0 8 0x123456789ABCDEF0 ∧
      (∀ n ∈ [1, 2, 8], (0 : Word).toNat % n = 0 ∧ s.memFault 0 n .load = none)) ∧
    (∃ s : State, s.reg 4 + sext (-8 : BitVec 14) = 0xFFFFFFFFFFFFFFF8 ∧ s.mem.Holds 0xFFFFFFFFFFFFFFF8 8 0x123456789ABCDEF0 ∧
      (0xFFFFFFFFFFFFFFF8 : Word).toNat % 8 = 0 ∧ s.memFault 0xFFFFFFFFFFFFFFF8 8 .load = none) :=
  ⟨⟨put (start []) 0 wordBytes, by decide, by decide, by decide, by decide, by decide, by decide, holds_of (by decide),
      holds_of (by decide), holds_of (by decide), by decide⟩,
    ⟨put (start []) 0xFFFFFFFFFFFFFFF8 wordBytes, by decide, holds_of (by decide), by decide, by decide⟩⟩

/-- The lowest and the highest word. -/
theorem witness_StoresComplete :
    ∃ s : State, s.reg 4 + sext (0 : BitVec 14) = 0 ∧ s.reg 4 + sext (-8 : BitVec 27) = 0xFFFFFFFFFFFFFFF8 ∧
      s.reg (reg3 0) + scaledDisp (-2 : BitVec 4) = 0xFFFFFFFFFFFFFFF8 ∧ s.reg 2 + scaledDisp (0 : BitVec 5) = 0 ∧
      s.reg 14 + scaledDisp (-2 : BitVec 5) = 0xFFFFFFFFFFFFFFF8 ∧
      ((0 : Word).toNat % 8 = 0 ∧ s.memFault 0 8 .store = none) ∧
      ((0xFFFFFFFFFFFFFFF8 : Word).toNat % 8 = 0 ∧ s.memFault 0xFFFFFFFFFFFFFFF8 8 .store = none) :=
  ⟨start [], by decide⟩

/-- Refused bytes, misaligned half-words and words, and refused aligned ones, at every form's address. -/
theorem witness_AccessesRaise :
    (∃ s : State, s.reg 4 + sext (0 : BitVec 14) = 1 ∧ s.reg 4 + sext (0 : BitVec 27) = 1 ∧ s.reg 4 + s.reg 5 = 1 ∧
      s.memFault 1 1 .load = some .dbe ∧ (1 : Word).toNat % 2 ≠ 0 ∧ (1 : Word).toNat % 8 ≠ 0) ∧
    (∃ s : State, s.reg (reg3 0) + scaledDisp (1 : BitVec 4) = 4 ∧ s.reg 2 + scaledDisp (1 : BitVec 5) = 4 ∧
      s.reg 14 + scaledDisp (1 : BitVec 5) = 4 ∧ (4 : Word).toNat % 8 ≠ 0 ∧ (3 : Reg) ≠ 0) ∧
    (∃ s : State, s.reg 4 + sext (8 : BitVec 14) = 8 ∧ (8 : Word).toNat % 2 = 0 ∧ s.memFault 8 2 .load = some .lmt) ∧
    (∃ s : State, s.reg 4 + sext (8 : BitVec 14) = 8 ∧ (8 : Word).toNat % 8 = 0 ∧ s.memFault 8 8 .load = some .tlb) ∧
    (∃ s : State, s.reg 4 + sext (8 : BitVec 14) = 8 ∧ (8 : Word).toNat % 8 = 0 ∧ s.memFault 8 8 .store = some .dbg) :=
  ⟨⟨refusing (start [(4, 1)]) 1 1 .load .dbe, by decide⟩, ⟨start [], by decide⟩,
    ⟨refusing (start []) 8 2 .load .lmt, by decide⟩, ⟨refusing (start []) 8 8 .load .tlb, by decide⟩,
    ⟨refusing (start []) 8 8 .store .dbg, by decide⟩⟩

theorem witness_StoreThenLoad :
    ∃ s : State, (3 : Reg) ≠ 0 ∧ (s.reg 4 + sext (-8 : BitVec 14)).toNat % 8 = 0 ∧
      s.memFault (s.reg 4 + sext (-8 : BitVec 14)) 8 .store = none ∧ s.memFault (s.reg 4 + sext (-8 : BitVec 14)) 8 .load = none :=
  ⟨start [], by decide⟩

/-- The value found differs from the expected one, and equals it. -/
theorem witness_CompareAndSwap :
    ∃ s : State, (3 : Reg) ≠ 14 ∧ (s.reg 4 + sext (0 : BitVec 12)).toNat % 8 = 0 ∧
      s.mem.Holds (s.reg 4 + sext (0 : BitVec 12)) 8 0x123456789ABCDEF0 ∧ s.memFault (s.reg 4 + sext (0 : BitVec 12)) 8 .load = none ∧
      0x123456789ABCDEF0 ≠ (s.reg 5).toNat ∧ 0x123456789ABCDEF0 = (s.reg 6).toNat ∧
      s.memFault (s.reg 4 + sext (0 : BitVec 12)) 8 .store = none :=
  ⟨put (start [(6, 0x123456789ABCDEF0)]) 0 wordBytes, by decide, by decide, holds_of (by decide), by decide, by decide, by decide,
    by decide⟩

/-- A misaligned address, a refused load, and a refused store after a load that found the expected value. -/
theorem witness_CasRaises :
    (∃ s : State, (3 : Reg) ≠ 14 ∧ (s.reg 4 + sext (1 : BitVec 12)).toNat % 8 ≠ 0) ∧
    (∃ s : State, (3 : Reg) ≠ 14 ∧ (s.reg 4 + sext (8 : BitVec 12)).toNat % 8 = 0 ∧
      s.memFault (s.reg 4 + sext (8 : BitVec 12)) 8 .load = some .dbe) ∧
    (∃ s : State, (3 : Reg) ≠ 14 ∧ (s.reg 4 + sext (0 : BitVec 12)).toNat % 8 = 0 ∧
      s.memFault (s.reg 4 + sext (0 : BitVec 12)) 8 .load = none ∧
      s.mem.Holds (s.reg 4 + sext (0 : BitVec 12)) 8 (s.reg 6).toNat ∧
      s.memFault (s.reg 4 + sext (0 : BitVec 12)) 8 .store = some .dbe) :=
  ⟨⟨start [], by decide⟩, ⟨refusing (start []) 8 8 .load .dbe, by decide⟩,
    ⟨refusing (put (start [(6, 0x123456789ABCDEF0)]) 0 wordBytes) 0 8 .store .dbe, by decide, by decide, by decide,
      holds_of (by decide), by decide⟩⟩

/-! ### System -/

theorem witness_BarriersAndNops : Instr.memdb ∈ [Instr.memdb, .memsb, .sync, .nopE1, .nopEA, .addi16 0 0] ∧
    Instr.addi16 0 0 ∈ [Instr.memdb, .memsb, .sync, .nopE1, .nopEA, .addi16 0 0] := by
  decide

theorem witness_MaskAndCache :
    (∃ s : State, s.km = false ∧ s.platform.privCache = false) ∧ (∃ s : State, s.km = true ∧ s.im = false) ∧
    (∃ s : State, s.km = true ∧ s.im = true) :=
  ⟨⟨user (start []), rfl, rfl⟩, ⟨{ start [] with im := false }, rfl, rfl⟩, ⟨start [], rfl, rfl⟩⟩

/-- A platform that gives EPC and VBA the lowest and the highest number, BIR naming LC; and one where only VBA has a number. -/
def numbered : State := { start [] with bir := 51, platform := { Platform.initial with sprEpc := some 0, sprVba := some 2047 } }

theorem witness_MoveFromSpecial :
    (∃ s : State, s.km = false ∧ s.platform.privMf = false) ∧
    numbered.km = true ∧ numbered.bir.toNat = (51 : SprNo).val ∧ (51 : SprNo) ≠ 61 ∧
    (0 : SprNo) ∉ ([48, 49, 50, 51, 52, 53, 59, 60, 61] : List SprNo) ∧ numbered.platform.sprEpc = some 0 ∧
    (2047 : SprNo) ∉ ([48, 49, 50, 51, 52, 53, 59, 60, 61] : List SprNo) ∧ numbered.platform.sprEpc ≠ some 2047 ∧
    numbered.platform.sprVba = some 2047 :=
  ⟨⟨user (start []), rfl, rfl⟩, by decide⟩

theorem witness_MoveToSpecial :
    (∃ s : State, s.km = false ∧ s.platform.privMt = false) ∧
    numbered.km = true ∧ numbered.bir.toNat = (51 : SprNo).val ∧ (51 : SprNo) ≠ 61 ∧
    (0 : SprNo) ∉ ([48, 49, 50, 51, 52, 53, 59, 60, 61] : List SprNo) ∧ numbered.platform.sprEpc = some 0 ∧
    (2047 : SprNo) ∉ ([48, 49, 50, 51, 52, 53, 59, 60, 61] : List SprNo) ∧ numbered.platform.sprEpc ≠ some 2047 ∧
    numbered.platform.sprVba = some 2047 :=
  ⟨⟨user (start []), rfl, rfl⟩, by decide⟩

/-- User mode with the three instructions made privileged; kernel mode with an unlisted number, and with BIR naming the breakout
register itself, the first number too large, and a number that takes up the whole register. -/
theorem witness_SystemRaises :
    (∃ s : State, s.km = false ∧ s.platform.privCache = true ∧ s.platform.privMf = true ∧ s.platform.privMt = true) ∧
    (∃ s : State, s.km = true ∧ (63 : SprNo) ∉ ([48, 49, 50, 51, 52, 53, 59, 60, 61] : List SprNo) ∧
      s.platform.sprEpc ≠ some 63 ∧ s.platform.sprVba ≠ some 63) ∧
    (∀ b ∈ ([61, 2048, 0xFFFFFFFFFFFFFFFF] : List Word), ∃ s : State, s.km = true ∧ (s.bir = 61 ∨ 2048 ≤ s.bir.toNat) ∧ s.bir = b) := by
  refine ⟨⟨{ user (start []) with platform := { Platform.initial with privCache := true, privMf := true, privMt := true } }, rfl, rfl,
    rfl, rfl⟩, ⟨start [], by decide⟩, fun b hb => ⟨{ start [] with bir := b }, rfl, ?_, rfl⟩⟩
  simp only [List.mem_cons, List.not_mem_nil, or_false] at hb
  rcases hb with rfl | rfl | rfl <;> decide

theorem witness_MapOnlyRefused : exec .mrk1 (start []) = .refused (.unsupported "MRK1") ∧
    exec .llax (start []) = .refused (.unsupported "LLAX") := ⟨rfl, rfl⟩


end Sys2Proof.Tests
end

section
/-! The `33h` group of two-byte system instructions (R106). -/

namespace Sys2Proof

/-- The opcode byte 33h selects the system group, whatever the parameters: its length is 16 bits, its six-bit opcode that of
INT, and bits 1:0 are 3 (R91, R105, R106). -/
theorem decodeWord_of_opcode33 (p : Encodings) {w : Nat} (h : field w 0 8 = 0x33) : decodeWord p w = decode33 w := by
  have hlen : field w 6 2 = 0 := by simp only [field] at *; omega
  have hop : field w 2 6 = 0x0C := by simp only [field] at *; omega
  have hlow : field w 0 2 = 3 := by simp only [field] at *; omega
  simp only [decodeWord, hlen, decode16, hop, hlow]

/-- The opcode byte of a two-byte word, by its bytes (R63). -/
theorem field_opcode_of_bytes {b0 : Nat} (b1 : Nat) (h : b0 < 256) : field (b0 + 256 * b1) 0 8 = b0 := by
  simp only [field]; omega

/-- The second byte of a two-byte word, by its bytes (R63). -/
theorem field_second_of_bytes {b0 b1 : Nat} (h0 : b0 < 256) (h1 : b1 < 256) : field (b0 + 256 * b1) 8 8 = b1 := by
  simp only [field]; omega

/-- A table whose keys leave out `k` has no row for `k`. -/
theorem find?_row_eq_none {α : Type} {rows : List (Nat × α)} {k : Nat} (h : k ∉ rows.map Prod.fst) :
    (rows.find? fun x => x.1 == k) = none :=
  List.find?_eq_none.2 fun _ hx hk => h (List.mem_map.2 ⟨_, hx, eq_of_beq hk⟩)

/-- Settles O7: the group's decoder is reached with the second byte in its field, each of its cases is the table's row of that
byte, and at any other byte the table has no row. -/
theorem systemGroup : Obligations.SystemGroup := by
  intro p sub8 hsub
  have hsecond : field (0x33 + 256 * sub8) 8 8 = sub8 := field_second_of_bytes (by decide) hsub
  rw [decodeWord_of_opcode33 p (field_opcode_of_bytes sub8 (by decide)), decode33, hsecond]
  split
  case h_16 =>
    have hkeys : sub8 ∉ [0x00, 0x01, 0x02, 0x03, 0x80, 0x82, 0x83, 0x90, 0x91, 0xE1, 0xE4, 0xE5, 0xE6, 0xE7, 0xEA] := by
      simp only [List.mem_cons, List.not_mem_nil, or_false, not_or]
      and_intros <;> assumption
    rw [find?_row_eq_none hkeys]
  all_goals rfl

end Sys2Proof
end

section
/-! The register compare and the bounds checks (R250, R252 to R254). -/

namespace Sys2Proof

/-! ### Decoding -/

/-- Bits 7:6 of the opcode byte equal to 1 select the 32-bit instructions (R91). -/
theorem decodeWord_of_opcode32 (p : Encodings) {w : Nat} (hlo : 0x40 ≤ field w 0 8) (hhi : field w 0 8 < 0x80) :
    decodeWord p w = decode32 p w := by
  have hlen : field w 6 2 = 1 := by simp only [field] at *; omega
  simp only [decodeWord, hlen]

/-- The opcode byte 42h selects the `{RR}` group, whatever the parameters (R108). -/
theorem decodeWord_of_opcode42 (p : Encodings) {w : Nat} (h : field w 0 8 = 0x42) : decodeWord p w = decodeRR w := by
  rw [decodeWord_of_opcode32 p (by rw [h]; decide) (by rw [h]; decide)]
  simp only [decode32, h]

/-- The opcode byte 59h selects the bounds checks, whatever the parameters (R109). -/
theorem decodeWord_of_opcode59 (p : Encodings) {w : Nat} (h : field w 0 8 = 0x59) : decodeWord p w = decodeCK w := by
  rw [decodeWord_of_opcode32 p (by rw [h]; decide) (by rw [h]; decide)]
  simp only [decode32, h]

end Sys2Proof

namespace Sys2Proof.Machine

/-! ### The flags as comparisons of numbers -/

/-- The flags of a comparison are equality and the two orders of the operands as numbers (R250). -/
theorem compareFlags_eq_decide (a b : Word) :
    compareFlags a b =
      { eq := decide (a.toNat = b.toNat), lt := decide (a.toInt < b.toInt), ltu := decide (a.toNat < b.toNat) } := by
  have heq : (a == b) = decide (a.toNat = b.toNat) := by rw [beq_eq_decide]; exact decide_eq_decide.2 BitVec.toNat_inj.symm
  rw [compareFlags, heq, BitVec.slt_eq_decide, BitVec.ult_eq_decide]

/-- The signed bounds check compares the operands as signed numbers (R252). -/
theorem insideSigned_eq_decide (a lo hi : Word) :
    insideSigned a lo hi = decide (lo.toInt ≤ a.toInt ∧ a.toInt < hi.toInt) := by
  rw [insideSigned, BitVec.sle_eq_decide, BitVec.slt_eq_decide, Bool.decide_and]

/-- The unsigned bounds check compares the operands as unsigned numbers (R253). -/
theorem insideUnsigned_eq_decide (a lo hi : Word) :
    insideUnsigned a lo hi = decide (lo.toNat ≤ a.toNat ∧ a.toNat < hi.toNat) := by
  rw [insideUnsigned, BitVec.ule_eq_decide, BitVec.ult_eq_decide, Bool.decide_and]

/-! ### Completion -/

/-- What an instruction that ends by `finishPred` does, in the terms of claims. -/
theorem writesFlags_of_eq {i : Instr} {s : State} {pt : PReg} {v : CmpReg} {len : Nat}
    (h : exec i s = s.finishPred pt v len) : WritesFlags i s pt v len := by
  obtain ⟨t, ht, hrest⟩ := s.finishPred_spec pt v len
  exact ⟨t, h.trans ht, hrest⟩

/-- CMP ends by writing the comparison of its two registers (R254). -/
theorem exec_cmp (pt : PReg) (ra rb : Reg) (s : State) :
    exec (.cmp pt ra rb) s = s.finishPred pt (compareFlags (s.reg ra) (s.reg rb)) 4 := rfl

/-- CHK ends by writing the target with `eq` replaced by the signed check (R252). -/
theorem exec_chk (pt : PReg) (ra rb rc : Reg) (s : State) :
    exec (.chk pt ra rb rc) s =
      s.finishPred pt { s.pred pt with eq := insideSigned (s.reg ra) (s.reg rb) (s.reg rc) } 4 := rfl

/-- CHKU ends by writing the target with `eq` replaced by the unsigned check (R253). -/
theorem exec_chku (pt : PReg) (ra rb rc : Reg) (s : State) :
    exec (.chku pt ra rb rc) s =
      s.finishPred pt { s.pred pt with eq := insideUnsigned (s.reg ra) (s.reg rb) (s.reg rc) } 4 := rfl

/-! ### The statements -/

/-- Settles O44: the `{RR}` row of `func6` 02h holds for every `sel3`, and CMP ends by writing the flags of the comparison. -/
theorem compareRegister : Obligations.CompareRegister := by
  intro s p w pt ra rb
  refine ⟨fun hop hfn => ?_, writesFlags_of_eq ?_⟩
  · simp only [decodeWord_of_opcode42 p hop, decodeRR, hfn]
  · rw [exec_cmp, compareFlags_eq_decide]

/-- Settles O46: `func6` picks the row of the bounds checks, and each check ends by writing the target's other two flags
back beside its answer. -/
theorem boundsChecks : Obligations.BoundsChecks := by
  intro s p w pt ra rb rc
  refine ⟨fun hop hfn => ?_, fun hop hfn => ?_, writesFlags_of_eq ?_, writesFlags_of_eq ?_⟩
  · simp only [decodeWord_of_opcode59 p hop, decodeCK, hfn]
  · simp only [decodeWord_of_opcode59 p hop, decodeCK, hfn]
  · rw [exec_chk, insideSigned_eq_decide]
  · rw [exec_chku, insideUnsigned_eq_decide]

end Sys2Proof.Machine
end

section
/-! The decoder reads every instruction back from its own word and bytes (R91, R99 to R117). -/

namespace Sys2Proof

/-! ### What a field of a word is, as a remainder -/

theorem regAt_eq_iff {w lo : Nat} {r : Reg} : regAt w lo = r ↔ w / 2 ^ lo % 32 = r.val := Fin.ext_iff

theorem codeAt_eq_iff {w lo : Nat} {c : Fin 8} : codeAt w lo = c ↔ w / 2 ^ lo % 8 = c.val := Fin.ext_iff

theorem bitNoAt_eq_iff {w lo : Nat} {b : BitNo} : bitNoAt w lo = b ↔ w / 2 ^ lo % 64 = b.val := Fin.ext_iff

theorem sprAt_eq_iff {w lo : Nat} {n : SprNo} : sprAt w lo = n ↔ w / 2 ^ lo % 2048 = n.val := Fin.ext_iff

theorem bitsAt_eq_iff {n w lo : Nat} {v : BitVec n} : bitsAt n w lo = v ↔ w / 2 ^ lo % 2 ^ n = v.toNat := by
  rw [← BitVec.toNat_inj, bitsAt, BitVec.toNat_ofNat]

theorem splitAt_eq_iff {n w hi : Nat} {v : BitVec n} :
    splitAt n w hi = v ↔ (w / 2 ^ hi * 4 + w % 4) % 2 ^ n = v.toNat := by
  rw [← BitVec.toNat_inj, splitAt, BitVec.toNat_ofNat]

/-- A value that a word holds from bit `lo` up to its end is read back from there. -/
theorem bitsAt_of_div_eq {n w lo : Nat} {v : BitVec n} (h : w / 2 ^ lo = v.toNat) : bitsAt n w lo = v := by
  rw [bitsAt_eq_iff, h, Nat.mod_eq_of_lt v.isLt]

/-- A value that a split format holds from bit `hi` up to its end, but for its low two bits, is read back from there. -/
theorem splitAt_of_div_eq {n w hi : Nat} {v : BitVec n} (hhi : w / 2 ^ hi = v.toNat / 4) (hlo : w % 4 = v.toNat % 4) :
    splitAt n w hi = v := by
  rw [splitAt_eq_iff, hhi, hlo, Nat.div_add_mod', Nat.mod_eq_of_lt v.isLt]

/-- A three-bit code fits a five-bit slot (R31). -/
theorem code_lt_32 (c : Fin 8) : c.val < 32 := by omega

/-! ### The opcode byte -/

/-- An opcode byte below 40h selects the 16-bit instructions (R91). -/
theorem decodeWord_of_opcode16 (p : Encodings) {w : Nat} (h : field w 0 8 < 0x40) : decodeWord p w = decode16 w := by
  have hlen : field w 6 2 = 0 := by simp only [field] at *; omega
  simp only [decodeWord, hlen]

/-- Bits 7:6 of the opcode byte equal to 2 select the 48-bit instructions (R91). -/
theorem decodeWord_of_opcode48 (p : Encodings) {w : Nat} (hlo : 0x80 ≤ field w 0 8) (hhi : field w 0 8 < 0xC0) :
    decodeWord p w = decode48 p w := by
  have hlen : field w 6 2 = 2 := by simp only [field] at *; omega
  simp only [decodeWord, hlen]

/-- An opcode byte from C0h up selects the 64-bit instructions (R91). -/
theorem decodeWord_of_opcode64 (p : Encodings) {w : Nat} (h : 0xC0 ≤ field w 0 8) : decodeWord p w = decode64 w := by
  have hlen : field w 6 2 = 3 := by simp only [field] at *; omega
  simp only [decodeWord, hlen]

/-- The six-bit opcode of a 16-bit instruction is its opcode byte without the low two bits (R98). -/
theorem field_op6_eq (w : Nat) : field w 2 6 = field w 0 8 / 4 := by
  simp only [field]; omega

/-- Bits 1:0 of a word are those of its opcode byte. -/
theorem field_low_eq (w : Nat) : field w 0 2 = field w 0 8 % 4 := by
  simp only [field]; omega

/-! ### The 16-bit formats (R99 to R106) -/

section
variable {op6 : Nat}

theorem field_op6_encCI (ho : op6 < 16) (r : Reg) (v : Nat) : field (encCI op6 r.val v) 2 6 = op6 := by
  simp only [field, encCI]; omega

theorem field_opcode_encCI (ho : op6 < 16) (r : Reg) (v : Nat) : field (encCI op6 r.val v) 0 8 < 0x40 := by
  simp only [field, encCI]; omega

theorem regAt_encCI (ho : op6 < 16) (r : Reg) (v : Nat) : regAt (encCI op6 r.val v) 8 = r := by
  have := r.isLt; rw [regAt_eq_iff, encCI]; omega

theorem splitAt_encCI (ho : op6 < 16) (r : Reg) {n : Nat} (v : BitVec n) : splitAt n (encCI op6 r.val v.toNat) 13 = v := by
  have := r.isLt
  exact splitAt_of_div_eq (by rw [encCI]; omega) (by rw [encCI]; omega)

theorem field_op6_encCI10 (ho : op6 < 16) (v : Nat) : field (encCI10 op6 v) 2 6 = op6 := by
  simp only [field, encCI10]; omega

theorem field_opcode_encCI10 (ho : op6 < 16) (v : Nat) : field (encCI10 op6 v) 0 8 < 0x40 := by
  simp only [field, encCI10]; omega

theorem splitAt_encCI10 (ho : op6 < 16) {n : Nat} (v : BitVec n) : splitAt n (encCI10 op6 v.toNat) 8 = v :=
  splitAt_of_div_eq (by rw [encCI10]; omega) (by rw [encCI10]; omega)

theorem field_op6_encCB (ho : op6 < 16) (p : PReg) (v : Nat) : field (encCB op6 p.val v) 2 6 = op6 := by
  simp only [field, encCB]; omega

theorem field_opcode_encCB (ho : op6 < 16) (p : PReg) (v : Nat) : field (encCB op6 p.val v) 0 8 < 0x40 := by
  simp only [field, encCB]; omega

theorem codeAt_encCB (ho : op6 < 16) (p : PReg) (v : Nat) : codeAt (encCB op6 p.val v) 8 = p := by
  have := p.isLt; rw [codeAt_eq_iff, encCB]; omega

theorem splitAt_encCB (ho : op6 < 16) (p : PReg) {n : Nat} (v : BitVec n) : splitAt n (encCB op6 p.val v.toNat) 11 = v := by
  have := p.isLt
  exact splitAt_of_div_eq (by rw [encCB]; omega) (by rw [encCB]; omega)

theorem field_op6_encCM (ho : op6 < 16) (r a : Reg3) (v : Nat) : field (encCM op6 r.val a.val v) 2 6 = op6 := by
  simp only [field, encCM]; omega

theorem field_opcode_encCM (ho : op6 < 16) (r a : Reg3) (v : Nat) : field (encCM op6 r.val a.val v) 0 8 < 0x40 := by
  simp only [field, encCM]; omega

theorem codeAt_encCM_target (ho : op6 < 16) (r a : Reg3) (v : Nat) : codeAt (encCM op6 r.val a.val v) 8 = r := by
  have := r.isLt; rw [codeAt_eq_iff, encCM]; omega

theorem codeAt_encCM_base (ho : op6 < 16) (r a : Reg3) (v : Nat) : codeAt (encCM op6 r.val a.val v) 11 = a := by
  have := r.isLt; have := a.isLt; rw [codeAt_eq_iff, encCM]; omega

theorem splitAt_encCM (ho : op6 < 16) (r a : Reg3) {n : Nat} (v : BitVec n) :
    splitAt n (encCM op6 r.val a.val v.toNat) 14 = v := by
  have := r.isLt; have := a.isLt
  exact splitAt_of_div_eq (by rw [encCM]; omega) (by rw [encCM]; omega)

theorem field_opcode_encINT (v : Nat) : field (encINT v) 0 8 = 0x30 + v % 2 := by
  simp only [field, encINT]; omega

theorem offsetAt_encINT (v : BitVec 9) : offsetAt (encINT v.toNat) = v := by
  have := v.isLt
  rw [← BitVec.toNat_inj, offsetAt, BitVec.toNat_ofNat, encINT]
  omega

theorem field_opcode_enc33 (sub8 : Nat) : field (enc33 sub8) 0 8 = 0x33 := by
  simp only [field, enc33]; omega

theorem field_second_enc33 {sub8 : Nat} (h : sub8 < 256) : field (enc33 sub8) 8 8 = sub8 := by
  simp only [field, enc33]; omega

end

/-! ### The longer formats (R101, R107 to R117): the opcode byte is their low byte -/

section
variable {op : Nat} (ho : op < 256)
include ho

theorem field_opcode_encCR (r : Reg) (a : Reg3) : field (encCR op r.val a.val) 0 8 = op := by
  simp only [field, encCR]; omega

theorem regAt_encCR (r : Reg) (a : Reg3) : regAt (encCR op r.val a.val) 8 = r := by
  have := r.isLt; rw [regAt_eq_iff, encCR]; omega

theorem codeAt_encCR (r : Reg) (a : Reg3) : codeAt (encCR op r.val a.val) 13 = a := by
  have := r.isLt; have := a.isLt; rw [codeAt_eq_iff, encCR]; omega

theorem field_opcode_encRI (r a v : Nat) : field (encRI op r a v) 0 8 = op := by
  simp only [field, encRI]; omega

theorem regAt_encRI_source (r : Nat) (a : Reg) (v : Nat) : regAt (encRI op r a.val v) 8 = a := by
  have := a.isLt; rw [regAt_eq_iff, encRI]; omega

theorem regAt_encRI_target (r a : Reg) (v : Nat) : regAt (encRI op r.val a.val v) 13 = r := by
  have := r.isLt; have := a.isLt; rw [regAt_eq_iff, encRI]; omega

theorem codeAt_encRI_target (p : PReg) (a : Reg) (v : Nat) : codeAt (encRI op p.val a.val v) 13 = p := by
  have := p.isLt; have := a.isLt; rw [codeAt_eq_iff, encRI]; omega

theorem bitsAt_encRI {r : Nat} (hr : r < 32) (a : Reg) {n : Nat} (v : BitVec n) :
    bitsAt n (encRI op r a.val v.toNat) 18 = v := by
  have := a.isLt
  exact bitsAt_of_div_eq (by rw [encRI]; omega)

theorem field_opcode_encRRR (sel r b a : Nat) : field (encRRR op sel r b a) 0 8 = op := by
  simp only [field, encRRR]; omega

theorem field_func6_encRRR {sel r : Nat} (hs : sel < 512) (hr : r < 32) (b a : Reg) :
    field (encRRR op sel r b.val a.val) 26 6 = sel / 8 := by
  have := b.isLt; have := a.isLt; simp only [field, encRRR]; omega

theorem field_sel3_encRRR (sel : Nat) {r : Nat} (hr : r < 32) (b a : Reg) :
    field (encRRR op sel r b.val a.val) 23 3 = sel % 8 := by
  have := b.isLt; have := a.isLt; simp only [field, encRRR]; omega

theorem field_sel1_encRRR (sel : Nat) (r b a : Reg) : field (encRRR op sel r.val b.val a.val) 23 1 = sel % 2 := by
  have := r.isLt; have := b.isLt; have := a.isLt; simp only [field, encRRR]; omega

theorem regAt_encRRR_first (sel r b : Nat) (a : Reg) : regAt (encRRR op sel r b a.val) 8 = a := by
  have := a.isLt; rw [regAt_eq_iff, encRRR]; omega

theorem regAt_encRRR_second (sel r : Nat) (b a : Reg) : regAt (encRRR op sel r b.val a.val) 13 = b := by
  have := a.isLt; have := b.isLt; rw [regAt_eq_iff, encRRR]; omega

theorem regAt_encRRR_third (sel : Nat) (r b a : Reg) : regAt (encRRR op sel r.val b.val a.val) 18 = r := by
  have := a.isLt; have := b.isLt; have := r.isLt; rw [regAt_eq_iff, encRRR]; omega

theorem codeAt_encRRR_third (sel : Nat) (p : PReg) (b a : Reg) : codeAt (encRRR op sel p.val b.val a.val) 18 = p := by
  have := a.isLt; have := b.isLt; have := p.isLt; rw [codeAt_eq_iff, encRRR]; omega

theorem codeAt_encRRR_sel {k : Nat} (hk : k % 8 = 0) (p : PReg) (r b a : Reg) :
    codeAt (encRRR op (k + p.val) r.val b.val a.val) 23 = p := by
  have := a.isLt; have := b.isLt; have := r.isLt; have := p.isLt; rw [codeAt_eq_iff, encRRR]; omega

theorem field_opcode_encR (k fn r a : Nat) : field (encR op k fn r a) 0 8 = op := by
  simp only [field, encR]; omega

theorem field_k_encR {k fn r : Nat} (hk : k < 64) (hf : fn < 64) (hr : r < 32) (a : Reg) :
    field (encR op k fn r a.val) 26 6 = k := by
  have := a.isLt; simp only [field, encR]; omega

theorem field_func6_encR {k fn r : Nat} (hf : fn < 64) (hr : r < 32) (a : Reg) :
    field (encR op k fn r a.val) 18 6 = fn := by
  have := a.isLt; simp only [field, encR]; omega

theorem regAt_encR_source (k fn r : Nat) (a : Reg) : regAt (encR op k fn r a.val) 8 = a := by
  have := a.isLt; rw [regAt_eq_iff, encR]; omega

theorem regAt_encR_target (k fn : Nat) (r a : Reg) : regAt (encR op k fn r.val a.val) 13 = r := by
  have := a.isLt; have := r.isLt; rw [regAt_eq_iff, encR]; omega

theorem field_opcode_encJ (r v : Nat) : field (encJ op r v) 0 8 = op := by
  simp only [field, encJ]; omega

theorem regAt_encJ (r : Reg) (v : Nat) : regAt (encJ op r.val v) 8 = r := by
  have := r.isLt; rw [regAt_eq_iff, encJ]; omega

theorem bitsAt_encJ (r : Reg) {n : Nat} (v : BitVec n) : bitsAt n (encJ op r.val v.toNat) 13 = v := by
  have := r.isLt
  exact bitsAt_of_div_eq (by rw [encJ]; omega)

theorem sprAt_encJ (r : Reg) (n : SprNo) : sprAt (encJ op r.val n.val) 13 = n := by
  have := r.isLt; have := n.isLt; rw [sprAt_eq_iff, encJ]; omega

theorem field_opcode_encBF (op2 r a mb me : Nat) : field (encBF op op2 r a mb me) 0 8 = op := by
  simp only [field, encBF]; omega

theorem field_op2_encBF {op2 a : Nat} (h2 : op2 < 4) (ha : a < 32) (r : Reg) (mb me : BitNo) :
    field (encBF op op2 r.val a mb.val me.val) 30 2 = op2 := by
  have := r.isLt; have := mb.isLt; have := me.isLt; simp only [field, encBF]; omega

theorem regAt_encBF_source (op2 r : Nat) (a : Reg) (mb me : Nat) : regAt (encBF op op2 r a.val mb me) 8 = a := by
  have := a.isLt; rw [regAt_eq_iff, encBF]; omega

theorem bitsAt_encBF_source (op2 r : Nat) (v : BitVec 5) (mb me : Nat) :
    bitsAt 5 (encBF op op2 r v.toNat mb me) 8 = v := by
  have := v.isLt; rw [bitsAt_eq_iff, encBF]; omega

theorem regAt_encBF_target {a : Nat} (ha : a < 32) (op2 : Nat) (r : Reg) (mb me : Nat) :
    regAt (encBF op op2 r.val a mb me) 13 = r := by
  have := r.isLt; rw [regAt_eq_iff, encBF]; omega

theorem bitNoAt_encBF_mb {a : Nat} (ha : a < 32) (op2 : Nat) (r : Reg) (mb : BitNo) (me : Nat) :
    bitNoAt (encBF op op2 r.val a mb.val me) 18 = mb := by
  have := r.isLt; have := mb.isLt; rw [bitNoAt_eq_iff, encBF]; omega

theorem bitNoAt_encBF_me {a : Nat} (ha : a < 32) (op2 : Nat) (r : Reg) (mb me : BitNo) :
    bitNoAt (encBF op op2 r.val a mb.val me.val) 24 = me := by
  have := r.isLt; have := mb.isLt; have := me.isLt; rw [bitNoAt_eq_iff, encBF]; omega

end

theorem field_opcode_encBcc (cond p v : Nat) : field (encBcc cond p v) 0 8 = 0x52 := by
  simp only [field, encBcc]; omega

theorem field_cond_encBcc {cond : Nat} (hc : cond < 16) (p : PReg) (v : Nat) : field (encBcc cond p.val v) 13 4 = cond := by
  have := p.isLt; simp only [field, encBcc]; omega

theorem codeAt_encBcc (cond : Nat) (p : PReg) (v : Nat) : codeAt (encBcc cond p.val v) 8 = p := by
  have := p.isLt; rw [codeAt_eq_iff, encBcc]; omega

theorem bitsAt_encBcc {cond : Nat} (hc : cond < 16) (p : PReg) (v : BitVec 14) :
    bitsAt 14 (encBcc cond p.val v.toNat) 18 = v := by
  have := p.isLt
  exact bitsAt_of_div_eq (by rw [encBcc]; omega)

theorem field_opcode_encCAS (t c b a v : Nat) : field (encCAS t c b a v) 0 8 = 0x9D := by
  simp only [field, encCAS]; omega

theorem regAt_encCAS_ra (t c b : Nat) (a : Reg) (v : Nat) : regAt (encCAS t c b a.val v) 8 = a := by
  have := a.isLt; rw [regAt_eq_iff, encCAS]; omega

theorem regAt_encCAS_rb (t c : Nat) (b a : Reg) (v : Nat) : regAt (encCAS t c b.val a.val v) 13 = b := by
  have := a.isLt; have := b.isLt; rw [regAt_eq_iff, encCAS]; omega

theorem regAt_encCAS_rc (t : Nat) (c b a : Reg) (v : Nat) : regAt (encCAS t c.val b.val a.val v) 18 = c := by
  have := a.isLt; have := b.isLt; have := c.isLt; rw [regAt_eq_iff, encCAS]; omega

theorem regAt_encCAS_rt (t c b a : Reg) (v : Nat) : regAt (encCAS t.val c.val b.val a.val v) 23 = t := by
  have := a.isLt; have := b.isLt; have := c.isLt; have := t.isLt; rw [regAt_eq_iff, encCAS]; omega

theorem bitsAt_encCAS (t c b a : Reg) (v : BitVec 12) : bitsAt 12 (encCAS t.val c.val b.val a.val v.toNat) 28 = v := by
  have := a.isLt; have := b.isLt; have := c.isLt; have := t.isLt
  exact bitsAt_of_div_eq (by rw [encCAS]; omega)


/-! ### The round trip -/

/-- Settles O1: for each format the opcode byte, the function fields and the operands are read back as they were written. -/
theorem decodeInvertsEncode : Obligations.DecodeInvertsEncode := by
  intro p i hprov hfree
  have hop := p.opcL24.isLt
  cases i
  case addi16 | ldi | lwBp | swBp | lwSp | swSp =>
    simp [encode, decodeWord_of_opcode16, field_opcode_encCI, decode16, field_op6_encCI, regAt_encCI, splitAt_encCI]
  case addiSp | addiBp | jal16 =>
    simp [encode, decodeWord_of_opcode16, field_opcode_encCI10, decode16, field_op6_encCI10, splitAt_encCI10]
  case add16 | and16 | or16 =>
    simp [encode, decodeWord_of_opcode16, field_opcode_encCR, decode16, field_op6_eq, field_low_eq, regAt_encCR,
      codeAt_encCR]
  case lw16 | sw16 =>
    simp [encode, decodeWord_of_opcode16, field_opcode_encCM, decode16, field_op6_encCM, codeAt_encCM_target,
      codeAt_encCM_base, splitAt_encCM]
  case beqs | bnes =>
    simp [encode, decodeWord_of_opcode16, field_opcode_encCB, decode16, field_op6_encCB, codeAt_encCB, splitAt_encCB]
  case int v =>
    rcases Nat.mod_two_eq_zero_or_one v.toNat with h | h <;>
      simp [encode, decodeWord_of_opcode16, field_opcode_encINT, decode16, field_op6_eq, field_low_eq, h, offsetAt_encINT]
  case rts | rti | rtd | rte | sync | memdb | memsb | cli | sei | nopE1 | nopEA | mrk1 | mrk2 | mrk3 | mrk4 =>
    simp [encode, decodeWord_of_opcode33, field_opcode_enc33, decode33, field_second_enc33]
  case addi | cmpi | andi | ori | xori | biti | twoAddi | fourAddi | eightAddi | sixteenAddi | lb | lbu | lh | lhu | lw | sw =>
    simp [encode, decodeWord_of_opcode32, field_opcode_encRI, decode32, regAt_encRI_source, regAt_encRI_target,
      codeAt_encRI_target, bitsAt_encRI, code_lt_32]
  case add | addo | sub | subo | xor | cmp | and | or | nand | nor =>
    simp [encode, decodeWord_of_opcode42, field_opcode_encRRR, decodeRR, field_func6_encRRR, field_sel3_encRRR,
      regAt_encRRR_first, regAt_encRRR_second, regAt_encRRR_third, codeAt_encRRR_third, code_lt_32]
  case chk pt ra rb rc =>
    have hsel : (0x000 + pt.val) / 8 = 0 ∧ 0x000 + pt.val < 512 := by omega
    simp only [encode, decodeWord_of_opcode59, field_opcode_encRRR, decodeCK, field_func6_encRRR, hsel, Fin.is_lt,
      Nat.reduceLT, Nat.reduceMod, regAt_encRRR_first, regAt_encRRR_second, regAt_encRRR_third, codeAt_encRRR_sel]
  case chku pt ra rb rc =>
    have hsel : (0x008 + pt.val) / 8 = 1 ∧ 0x008 + pt.val < 512 := by omega
    simp only [encode, decodeWord_of_opcode59, field_opcode_encRRR, decodeCK, field_func6_encRRR, hsel, Fin.is_lt,
      Nat.reduceLT, Nat.reduceMod, regAt_encRRR_first, regAt_encRRR_second, regAt_encRRR_third, codeAt_encRRR_sel]
  case bf | bt | beq | bne | ble | bgt | bge | blt | bleu | bgtu | bgeu | bltu | bsig =>
    simp [encode, decodeWord_of_opcode32, field_opcode_encBcc, decode32, decodeBcc, field_cond_encBcc, codeAt_encBcc,
      bitsAt_encBcc]
  case jal =>
    simp [encode, decodeWord_of_opcode32, field_opcode_encJ, decode32, regAt_encJ, bitsAt_encJ]
  case xnor | andc | lbux | lbx | lhux | lhx | div | divu | shl | shru | shr | twoAdd | fourAdd | eightAdd | sixteenAdd =>
    simp [encode, decodeWord_container hfree, hprov, hop, field_opcode_encRRR, decodeL24, field_func6_encRRR,
      field_sel1_encRRR, regAt_encRRR_first, regAt_encRRR_second, regAt_encRRR_third]
  case neg | not | abs | com | jalr =>
    simp [encode, decodeWord_container hfree, hprov, hop, field_opcode_encR, decodeL24, field_k_encR, decodeR,
      field_func6_encR, regAt_encR_source, regAt_encR_target]
  case cacheInvICache | cacheInvILine | cacheInvDCache | cacheInvDLine =>
    simp [encode, decodeWord_container hfree, hprov, hop, field_opcode_encR, decodeL24, field_k_encR, decodeCache,
      field_func6_encR, regAt_encR_source]
  case addi48 | cmpi48 | cmpil | andi48 | ori48 | xori48 | lb48 | lbu48 | lh48 | lhu48 | lw48 | sw48 =>
    simp [encode, decodeWord_of_opcode48, field_opcode_encRI, decode48, regAt_encRI_source, regAt_encRI_target,
      codeAt_encRI_target, bitsAt_encRI, code_lt_32]
  case jal48 | mf | mt =>
    simp [encode, decodeWord_of_opcode48, field_opcode_encJ, decode48, hprov, regAt_encJ, bitsAt_encJ, sprAt_encJ]
  case cas =>
    simp [encode, decodeWord_of_opcode48, field_opcode_encCAS, decode48, hprov, regAt_encCAS_ra, regAt_encCAS_rb,
      regAt_encCAS_rc, regAt_encCAS_rt, bitsAt_encCAS]
  case bfins | bfset | bfclr | bfchg =>
    simp [encode, decodeWord_of_opcode48, field_opcode_encBF, decode48, decodeBFAA, field_op2_encBF, regAt_encBF_source,
      regAt_encBF_target, bitNoAt_encBF_mb, bitNoAt_encBF_me]
  case bfextu | bfext =>
    simp [encode, decodeWord_of_opcode48, field_opcode_encBF, decode48, decodeBFAB, field_op2_encBF, regAt_encBF_source,
      regAt_encBF_target, bitNoAt_encBF_mb, bitNoAt_encBF_me]
  case bfinsi rt imm mb me =>
    have himm := imm.isLt
    simp [encode, decodeWord_of_opcode48, field_opcode_encBF, decode48, decodeBFAB, field_op2_encBF, himm,
      bitsAt_encBF_source, regAt_encBF_target, bitNoAt_encBF_mb, bitNoAt_encBF_me]
  case addis | cmpiu | andis | oris | xoris =>
    simp [encode, decodeWord_of_opcode64, field_opcode_encRI, decode64, regAt_encRI_source, regAt_encRI_target,
      codeAt_encRI_target, bitsAt_encRI, code_lt_32]
  all_goals simp [encode, decodeWord, field, decode32, decode48]

/-! ### Bytes and their number (R63) -/

theorem length_bytesOfWord : ∀ n w : Nat, (bytesOfWord n w).length = n
  | 0, _ => rfl
  | n + 1, w => by rw [bytesOfWord, List.length_cons, length_bytesOfWord n]

theorem wordOfBytes_bytesOfWord : ∀ n w : Nat, wordOfBytes (bytesOfWord n w) = w % 256 ^ n
  | 0, w => by rw [bytesOfWord, wordOfBytes, Nat.pow_zero, Nat.mod_one]
  | n + 1, w => by
    rw [bytesOfWord, wordOfBytes, wordOfBytes_bytesOfWord n, BitVec.toNat_ofNat,
      show 256 ^ (n + 1) = 256 * 256 ^ n from Nat.pow_succ']
    exact Nat.mod_mul.symm

/-- The low byte of the number of bytes is the first of them. -/
theorem field_opcode_wordOfBytes (b : Byte) (bs : List Byte) : field (wordOfBytes (b :: bs)) 0 8 = b.toNat := by
  simp only [field, wordOfBytes]; omega

/-- Bytes that make up the length their first byte gives are decoded by their number, and the bytes after them are left. -/
theorem decodeBytes_append (p : Encodings) {b : Byte} {bs : List Byte} (rest : List Byte)
    (h : (b :: bs).length = lengthOf b.toNat) :
    decodeBytes p (b :: bs ++ rest) = (decodeWord p (wordOfBytes (b :: bs))).map fun i => (i, rest) := by
  have hlen : ¬ (b :: bs ++ rest).length < lengthOf b.toNat := by rw [List.length_append, h]; omega
  simp only [List.cons_append, decodeBytes] at hlen ⊢
  rw [if_neg hlen, ← h, ← List.cons_append, List.take_left, List.drop_left]

/-- What decoding a list of bytes has found: they reach to the length their first byte gives, and the instruction is that of
the number of so many bytes. -/
theorem decodeBytes_ok {p : Encodings} {b : Byte} {bs rest : List Byte} {i : Instr}
    (h : decodeBytes p (b :: bs) = .ok (i, rest)) :
    lengthOf b.toNat ≤ (b :: bs).length ∧ rest = (b :: bs).drop (lengthOf b.toNat) ∧
      decodeWord p (wordOfBytes ((b :: bs).take (lengthOf b.toNat))) = .ok i := by
  simp only [decodeBytes] at h
  split at h
  · cases h
  · next hlen =>
    cases hw : decodeWord p (wordOfBytes ((b :: bs).take (lengthOf b.toNat))) with
    | error r => rw [hw] at h; cases h
    | ok j =>
      rw [hw] at h
      cases h
      exact ⟨Nat.le_of_not_lt hlen, rfl, rfl⟩

/-! ### The length of what is decoded (R91) -/

theorem byteLength_of_decode33 {w : Nat} {i : Instr} (h : decode33 w = .ok i) : byteLength i = 2 := by
  unfold decode33 at h
  split at h <;> cases h <;> rfl

theorem byteLength_of_decode16 {w : Nat} {i : Instr} (h : decode16 w = .ok i) : byteLength i = 2 := by
  unfold decode16 at h
  split at h
  case h_4 => split at h <;> cases h <;> rfl
  case h_13 =>
    split at h
    case h_3 => exact byteLength_of_decode33 h
    all_goals cases h <;> rfl
  all_goals cases h <;> rfl

theorem byteLength_of_decodeRR {w : Nat} {i : Instr} (h : decodeRR w = .ok i) : byteLength i = 4 := by
  unfold decodeRR at h
  split at h <;> cases h <;> rfl

theorem byteLength_of_decodeCK {w : Nat} {i : Instr} (h : decodeCK w = .ok i) : byteLength i = 4 := by
  unfold decodeCK at h
  split at h <;> cases h <;> rfl

theorem byteLength_of_decodeBcc {w : Nat} {i : Instr} (h : decodeBcc w = .ok i) : byteLength i = 4 := by
  unfold decodeBcc at h
  split at h <;> cases h <;> rfl

theorem byteLength_of_decodeR {w : Nat} {i : Instr} (h : decodeR w = .ok i) : byteLength i = 4 := by
  unfold decodeR at h
  split at h <;> cases h <;> rfl

theorem byteLength_of_decodeCache {w : Nat} {i : Instr} (h : decodeCache w = .ok i) : byteLength i = 4 := by
  unfold decodeCache at h
  split at h <;> cases h <;> rfl

theorem byteLength_of_decodeL24 {w : Nat} {i : Instr} (h : decodeL24 w = .ok i) : byteLength i = 4 := by
  unfold decodeL24 at h
  split at h
  case h_1 => exact byteLength_of_decodeR h
  case h_2 => exact byteLength_of_decodeCache h
  all_goals cases h <;> rfl

theorem byteLength_of_decode32 {p : Encodings} {w : Nat} {i : Instr} (h : decode32 p w = .ok i) : byteLength i = 4 := by
  unfold decode32 at h
  split at h
  case h_1 => exact byteLength_of_decodeRR h
  case h_2 => exact byteLength_of_decodeBcc h
  case h_3 => exact byteLength_of_decodeCK h
  case h_28 =>
    split at h
    · split at h
      · exact byteLength_of_decodeL24 h
      · cases h
    · cases h
  all_goals cases h; rfl

theorem byteLength_of_decodeBFAA {w : Nat} {i : Instr} (h : decodeBFAA w = .ok i) : byteLength i = 6 := by
  unfold decodeBFAA at h
  split at h <;> cases h <;> rfl

theorem byteLength_of_decodeBFAB {w : Nat} {i : Instr} (h : decodeBFAB w = .ok i) : byteLength i = 6 := by
  unfold decodeBFAB at h
  split at h <;> cases h <;> rfl

theorem byteLength_of_decode48 {p : Encodings} {w : Nat} {i : Instr} (h : decode48 p w = .ok i) : byteLength i = 6 := by
  unfold decode48 at h
  split at h
  case h_1 => exact byteLength_of_decodeBFAA h
  case h_2 => exact byteLength_of_decodeBFAB h
  case h_13 | h_14 =>
    split at h
    · cases h; rfl
    · cases h
  all_goals cases h <;> rfl

theorem byteLength_of_decode64 {w : Nat} {i : Instr} (h : decode64 w = .ok i) : byteLength i = 8 := by
  unfold decode64 at h
  split at h <;> cases h <;> rfl

/-- The opcode byte selects the decoder of its length (R91). -/
theorem decodeWord_eq (p : Encodings) (w : Nat) :
    decodeWord p w =
      if field w 0 8 < 0x40 then decode16 w else if field w 0 8 < 0x80 then decode32 p w
      else if field w 0 8 < 0xC0 then decode48 p w else decode64 w := by
  split
  · next h => exact decodeWord_of_opcode16 p h
  · next h16 =>
    split
    · next h => exact decodeWord_of_opcode32 p (Nat.le_of_not_lt h16) h
    · next h32 =>
      split
      · next h => exact decodeWord_of_opcode48 p (Nat.le_of_not_lt h32) h
      · next h48 => exact decodeWord_of_opcode64 p (Nat.le_of_not_lt h48)

/-- The opcode byte gives the length of the instruction that a word holds (R91). -/
theorem byteLength_of_decodeWord {p : Encodings} {w : Nat} {i : Instr} (h : decodeWord p w = .ok i) :
    byteLength i = lengthOf (field w 0 8) := by
  have hbyte : field w 0 8 < 256 := Nat.mod_lt _ (by decide)
  rw [decodeWord_eq] at h
  rw [lengthOf]
  split at h
  · rw [byteLength_of_decode16 h]; omega
  · split at h
    · rw [byteLength_of_decode32 h]; omega
    · split at h
      · rw [byteLength_of_decode48 h]; omega
      · rw [byteLength_of_decode64 h]; omega

/-- Settles O3: the number of the bytes taken has their first byte as its opcode byte. -/
theorem lengthFromOpcode : Obligations.LengthFromOpcode := by
  intro p b bs rest i h
  obtain ⟨hle, hrest, hw⟩ := decodeBytes_ok h
  have hlen : lengthOf b.toNat = 2 * (b.toNat / 64 + 1) := by have := b.isLt; rw [lengthOf]; omega
  have hfirst : (b :: bs).take (lengthOf b.toNat) = b :: bs.take (lengthOf b.toNat - 1) := by rw [hlen]; rfl
  have hi : byteLength i = lengthOf b.toNat := by
    rw [byteLength_of_decodeWord hw, hfirst, field_opcode_wordOfBytes]
  refine ⟨hi.trans hlen, ?_, hi ▸ hle⟩
  rw [hi, hrest, List.take_append_drop]

end Sys2Proof
end

section
/-! What bytes decode to: the round trip through memory order, the spec-assigned bytes, the reserved bytes, the unused bits
(R63, R96, R110, R118, R121). -/

namespace Sys2Proof

/-! ### The bytes of an instruction -/

/-- The word of every instruction fits its bytes, and its opcode byte gives its length (R91), by the format of its word. -/
theorem encoding_fits (i : Instr) : Laws.EncodingFits.Statement i := by
  intro p hfree
  have hop := p.opcL24.isLt
  have hcont := Laws.lengthOf_container hfree
  cases i
  case addi16 | ldi | lwBp | swBp | lwSp | swSp => exact Laws.fits_encCI (by decide) (Fin.isLt _) (BitVec.isLt _)
  case addiSp | addiBp | jal16 => exact Laws.fits_encCI10 (by decide) (BitVec.isLt _)
  case add16 | and16 | or16 => exact Laws.fits_encCR (by decide) (Fin.isLt _) (Fin.isLt _)
  case lw16 | sw16 => exact Laws.fits_encCM (by decide) (Fin.isLt _) (Fin.isLt _) (BitVec.isLt _)
  case beqs | bnes => exact Laws.fits_encCB (by decide) (Fin.isLt _) (BitVec.isLt _)
  case int => exact Laws.fits_encINT (BitVec.isLt _)
  case addi | andi | ori | xori | twoAddi | fourAddi | eightAddi | sixteenAddi | lb | lbu | lh | lhu | lw | sw =>
    exact Laws.fits_encRI 14 (p := 0) (by decide) (Fin.isLt _) (Fin.isLt _) (BitVec.isLt _) rfl rfl
  case cmpi | biti =>
    exact Laws.fits_encRI 14 (p := 0) (by decide) (code_lt_32 _) (Fin.isLt _) (BitVec.isLt _) rfl rfl
  case add | addo | sub | subo | xor | and | or | nand | nor =>
    exact Laws.fits_encRRR (by decide) (by decide) (Fin.isLt _) (Fin.isLt _) (Fin.isLt _) rfl
  case cmp => exact Laws.fits_encRRR (by decide) (by decide) (code_lt_32 _) (Fin.isLt _) (Fin.isLt _) rfl
  case chk | chku => exact Laws.fits_encRRR (by decide) (by omega) (Fin.isLt _) (Fin.isLt _) (Fin.isLt _) rfl
  case bf | bt | beq | bne | ble | bgt | bge | blt | bleu | bgtu | bgeu | bltu | bsig =>
    exact Laws.fits_encBcc (by decide) (Fin.isLt _) (BitVec.isLt _)
  case jal => exact Laws.fits_encJ 19 (p := 0) (by decide) (Fin.isLt _) (BitVec.isLt _) rfl rfl
  case xnor | andc | lbux | lbx | lhux | lhx | div | divu | shl | shru | shr | twoAdd | fourAdd | eightAdd | sixteenAdd =>
    exact Laws.fits_encRRR hop (by decide) (Fin.isLt _) (Fin.isLt _) (Fin.isLt _) hcont
  case neg | not | abs | com | jalr => exact Laws.fits_encR hop (by decide) (by decide) (Fin.isLt _) (Fin.isLt _) hcont
  case cacheInvICache | cacheInvILine | cacheInvDCache | cacheInvDLine =>
    exact Laws.fits_encR hop (by decide) (by decide) (by decide) (Fin.isLt _) hcont
  case addi48 | andi48 | ori48 | xori48 =>
    exact Laws.fits_encRI 30 (p := 0) (by decide) (Fin.isLt _) (Fin.isLt _) (BitVec.isLt _) rfl rfl
  case cmpi48 => exact Laws.fits_encRI 30 (p := 0) (by decide) (code_lt_32 _) (Fin.isLt _) (BitVec.isLt _) rfl rfl
  case cmpil => exact Laws.fits_encRI 24 (p := 6) (by decide) (code_lt_32 _) (Fin.isLt _) (BitVec.isLt _) rfl rfl
  case lb48 | lbu48 | lh48 | lhu48 | lw48 | sw48 =>
    exact Laws.fits_encRI 27 (p := 3) (by decide) (Fin.isLt _) (Fin.isLt _) (BitVec.isLt _) rfl rfl
  case jal48 => exact Laws.fits_encJ 35 (p := 0) (by decide) (Fin.isLt _) (BitVec.isLt _) rfl rfl
  case mf | mt => exact Laws.fits_encJ 11 (p := 24) (by decide) (Fin.isLt _) (Fin.isLt _) rfl rfl
  case cas => exact Laws.fits_encCAS (Fin.isLt _) (Fin.isLt _) (Fin.isLt _) (Fin.isLt _) (BitVec.isLt _)
  case bfins | bfset | bfclr | bfchg | bfextu | bfext =>
    exact Laws.fits_encBF (by decide) (by decide) (Fin.isLt _) (Fin.isLt _) (Fin.isLt _) (Fin.isLt _) rfl
  case bfinsi => exact Laws.fits_encBF (by decide) (by decide) (Fin.isLt _) (BitVec.isLt _) (Fin.isLt _) (Fin.isLt _) rfl
  case addis | andis | oris | xoris =>
    exact Laws.fits_encRI 40 (p := 6) (by decide) (Fin.isLt _) (Fin.isLt _) (BitVec.isLt _) rfl rfl
  case cmpiu => exact Laws.fits_encRI 40 (p := 6) (by decide) (code_lt_32 _) (Fin.isLt _) (BitVec.isLt _) rfl rfl
  all_goals simp [encode, enc33, byteLength, lengthOf]

/-- An instruction's bytes make up the length that the first of them gives, and their number is the instruction's word. -/
theorem encodeBytes_eq_cons {p : Encodings} (i : Instr) (hfree : p.containerFree = true) :
    ∃ b bs, encodeBytes p i = b :: bs ∧ (b :: bs).length = lengthOf b.toNat ∧ wordOfBytes (b :: bs) = encode p i := by
  obtain ⟨hfit, hlen⟩ := encoding_fits i p hfree
  obtain ⟨n, hn⟩ : ∃ n, byteLength i = n + 1 := ⟨byteLength i - 1, by rw [← hlen, lengthOf]; omega⟩
  have hcons : encodeBytes p i = BitVec.ofNat 8 (encode p i) :: bytesOfWord n (encode p i / 256) := by
    rw [encodeBytes, hn, bytesOfWord]
  refine ⟨_, _, hcons, ?_, ?_⟩
  · rw [BitVec.toNat_ofNat, hlen, ← hcons, encodeBytes, length_bytesOfWord]
  · rw [← hcons, encodeBytes, wordOfBytes_bytesOfWord, Nat.mod_eq_of_lt]
    rwa [show 256 = 2 ^ 8 from rfl, ← Nat.pow_mul]

/-- Settles O2: the bytes are taken as a whole, their number is the instruction's word, and the word is read back. -/
theorem bytesRoundTrip : Obligations.BytesRoundTrip := by
  intro p i rest hprov hfree
  obtain ⟨b, bs, hbytes, hlen, hword⟩ := encodeBytes_eq_cons i hfree
  rw [hbytes, decodeBytes_append p rest hlen, hword, decodeInvertsEncode p i hprov hfree]
  rfl

/-! ### The spec-assigned bytes (R110, R116, R121) -/

/-- A 32-bit byte that the table does not leave blank is decoded alike under all parameters. -/
theorem decode32_of_not_blank (p q : Encodings) {w : Nat} (hlo : 0x40 ≤ field w 0 8) (hhi : field w 0 8 < 0x80)
    (h : blank32 (field w 0 8) = false) : decode32 p w = decode32 q w := by
  unfold decode32
  split
  case h_28 =>
    simp only [blank32, Bool.or_eq_false_iff, Bool.and_eq_false_iff, decide_eq_false_iff_not, imp_false] at *
    omega
  all_goals rfl

/-- A 48-bit byte that the spec has not assigned itself is decoded alike under all parameters. -/
theorem decode48_of_not_assigned (p q : Encodings) {w : Nat} (h9B : field w 0 8 ≠ 0x9B) (h9D : field w 0 8 ≠ 0x9D) :
    decode48 p w = decode48 q w := by
  unfold decode48
  split
  case h_13 h => exact absurd h h9B
  case h_14 h => exact absurd h h9D
  all_goals rfl

/-- The switch `PROVISIONAL_ENCODINGS` matters to no byte but the container's, 9Bh and 9Dh. -/
theorem decodeWord_provisional_irrelevant {p : Encodings} {w : Nat} (b c : Bool)
    (hcont : ¬ (field w 0 8 = p.opcL24.toNat ∧ p.containerFree = true)) (h9B : field w 0 8 ≠ 0x9B)
    (h9D : field w 0 8 ≠ 0x9D) :
    decodeWord { p with provisional := b } w = decodeWord { p with provisional := c } w := by
  rw [decodeWord_eq, decodeWord_eq]
  split
  · rfl
  · next h16 =>
    split
    · next h32 =>
      cases hb : blank32 (field w 0 8) with
      | false => exact decode32_of_not_blank _ _ (Nat.le_of_not_lt h16) h32 hb
      | true =>
        have hop : field w 0 8 ≠ p.opcL24.toNat := fun h => hcont ⟨h, by rw [Encodings.containerFree, ← h, hb]⟩
        rw [decode32_blank _ hb, decode32_blank _ hb, if_neg hop, if_neg hop]
    · rw [decode48_of_not_assigned _ _ h9B h9D]

/-- With the switch off the container's byte, 9Bh and 9Dh are refused. -/
theorem decodeWord_provisional_off {p : Encodings} {w : Nat}
    (h : (field w 0 8 = p.opcL24.toNat ∧ p.containerFree = true) ∨ field w 0 8 = 0x9B ∨ field w 0 8 = 0x9D) :
    decodeWord { p with provisional := false } w = .error (.provisionalOff (field w 0 8)) := by
  rcases h with ⟨hop, hfree⟩ | h9 | h9
  · have hc := decodeWord_container (p := { p with provisional := false }) hfree hop
    rw [hc, hop]
    rfl
  all_goals
    rw [decodeWord_of_opcode48 _ (by omega) (by omega)]
    simp [decode48, h9]

/-- Settles O4: the three bytes are refused with the switch off, and no other byte looks at it. -/
theorem provisionalSwitch : Obligations.ProvisionalSwitch := by
  intro p w
  have hop : w % 256 = field w 0 8 := by simp [field]
  rw [hop]
  split
  · next h => exact decodeWord_provisional_off h
  · next h =>
    push Not at h
    obtain ⟨hcont, h9B, h9D⟩ := h
    exact decodeWord_provisional_irrelevant _ _ (by simpa using hcont) h9B h9D

/-! ### The reserved bytes (R118) -/

/-- The answer is not that the opcode byte is reserved. -/
def NotReservedOpcode (r : Except Reject Instr) : Prop := ∀ op, r ≠ .error (.reservedOpcode op)

theorem decode33_notReserved (w : Nat) : NotReservedOpcode (decode33 w) := by
  unfold decode33; split <;> exact nofun

theorem decodeRR_notReserved (w : Nat) : NotReservedOpcode (decodeRR w) := by
  unfold decodeRR; split <;> exact nofun

theorem decodeCK_notReserved (w : Nat) : NotReservedOpcode (decodeCK w) := by
  unfold decodeCK; split <;> exact nofun

theorem decodeBcc_notReserved (w : Nat) : NotReservedOpcode (decodeBcc w) := by
  unfold decodeBcc; split <;> exact nofun

theorem decodeR_notReserved (w : Nat) : NotReservedOpcode (decodeR w) := by
  unfold decodeR; split <;> exact nofun

theorem decodeCache_notReserved (w : Nat) : NotReservedOpcode (decodeCache w) := by
  unfold decodeCache; split <;> exact nofun

theorem decodeL24_notReserved (w : Nat) : NotReservedOpcode (decodeL24 w) := by
  unfold decodeL24
  split
  case h_1 => exact decodeR_notReserved w
  case h_2 => exact decodeCache_notReserved w
  all_goals exact nofun

theorem decodeBFAA_notReserved (w : Nat) : NotReservedOpcode (decodeBFAA w) := by
  unfold decodeBFAA; split <;> exact nofun

theorem decodeBFAB_notReserved (w : Nat) : NotReservedOpcode (decodeBFAB w) := by
  unfold decodeBFAB; split <;> exact nofun

theorem decode16_reserved_iff {w : Nat} (h : field w 0 8 < 0x40) :
    decode16 w = .error (.reservedOpcode (field w 0 8)) ↔ field w 0 8 ∈ [0x0D, 0x32, 0x3C, 0x3D, 0x3E, 0x3F] := by
  have hmod : w % 256 = field w 0 8 := by simp [field]
  unfold decode16
  rw [field_op6_eq, field_low_eq, hmod]
  generalize field w 0 8 = op at h
  split
  case h_4 =>
    split
    case h_4 => simp only [imp_false] at *; simp; omega
    all_goals simp; omega
  case h_13 =>
    split
    case h_3 => simp [decode33_notReserved w op]; omega
    case h_4 => simp only [imp_false] at *; simp; omega
    all_goals simp; omega
  case h_16 => simp only [imp_false] at *; simp; omega
  all_goals simp; omega

theorem decode32_reserved_iff (p : Encodings) {w : Nat} (hlo : 0x40 ≤ field w 0 8) (hhi : field w 0 8 < 0x80) :
    decode32 p w = .error (.reservedOpcode (field w 0 8)) ↔
      blank32 (field w 0 8) = true ∧ field w 0 8 ≠ p.opcL24.toNat := by
  cases hb : blank32 (field w 0 8) with
  | true =>
    rw [decode32_blank p hb]
    split
    · next hop =>
      split
      · simp [decodeL24_notReserved w _, hop]
      · simp [hop]
    · next hop => simp [hop]
  | false =>
    unfold decode32
    split
    case h_1 => simp [decodeRR_notReserved w _]
    case h_2 => simp [decodeBcc_notReserved w _]
    case h_3 => simp [decodeCK_notReserved w _]
    case h_28 =>
      simp only [blank32, Bool.or_eq_false_iff, Bool.and_eq_false_iff, decide_eq_false_iff_not, imp_false] at *
      omega
    all_goals simp

theorem decode48_reserved_iff (p : Encodings) {w : Nat} (hlo : 0x80 ≤ field w 0 8) (hhi : field w 0 8 < 0xC0) :
    decode48 p w = .error (.reservedOpcode (field w 0 8)) ↔
      field w 0 8 ∈ [0x8C, 0x9C, 0x9E, 0x9F, 0xB4, 0xB5, 0xB6] ∨ (0x83 ≤ field w 0 8 ∧ field w 0 8 ≤ 0x87) ∨
        (0x90 ≤ field w 0 8 ∧ field w 0 8 ≤ 0x9A) ∨ 0xB9 ≤ field w 0 8 := by
  unfold decode48
  split
  case h_1 h => simp [decodeBFAA_notReserved w _, h]
  case h_2 h => simp [decodeBFAB_notReserved w _, h]
  case h_13 h => split <;> simp [h]
  case h_14 h => split <;> simp [h]
  case h_35 => simp only [imp_false] at *; simp; omega
  all_goals next h => simp [h]

theorem decode64_reserved_iff (w : Nat) :
    decode64 w = .error (.reservedOpcode (field w 0 8)) ↔ field w 0 8 ∉ [0xE0, 0xE1, 0xE8, 0xE9, 0xEA] := by
  unfold decode64
  split
  case h_6 => simp only [imp_false] at *; simp; omega
  all_goals next h => simp [h]

/-- Settles O5: the opcode byte selects a decoder, and each refuses as reserved its own rows of the table. -/
theorem reservedOpcodes : Obligations.ReservedOpcodes := by
  intro p w
  have hop : w % 256 = field w 0 8 := by simp [field]
  have hbyte : field w 0 8 < 256 := Nat.mod_lt _ (by decide)
  rw [hop, decodeWord_eq]
  split
  · next h16 =>
    rw [decode16_reserved_iff h16]
    simp only [List.mem_cons, List.not_mem_nil, or_false]
    omega
  · next h16 =>
    split
    · next h32 =>
      rw [decode32_reserved_iff p (by omega) h32]
      simp only [blank32, Bool.or_eq_true, Bool.and_eq_true, decide_eq_true_eq, List.mem_cons, List.not_mem_nil, or_false]
      omega
    · next h32 =>
      split
      · next h48 =>
        rw [decode48_reserved_iff p (by omega) h48]
        simp only [List.mem_cons, List.not_mem_nil, or_false]
        omega
      · next h48 =>
        rw [decode64_reserved_iff]
        simp only [List.mem_cons, List.not_mem_nil, or_false]
        omega

/-! ### The unused bits (R96) -/

/-- Two words agree but for the `n` bits from bit `lo` up. -/
def AgreeOutside (lo n w v : Nat) : Prop := w % 2 ^ lo = v % 2 ^ lo ∧ w / 2 ^ (lo + n) = v / 2 ^ (lo + n)

section
variable {lo n w v : Nat} (h : AgreeOutside lo n w v)
include h

/-- A field outside those bits is the same in both words. -/
theorem AgreeOutside.field_eq {k m : Nat} (hk : k + m ≤ lo ∨ lo + n ≤ k) : field w k m = field v k m := by
  obtain ⟨hlow, hhigh⟩ := h
  have hbit : ∀ j, j < lo ∨ lo + n ≤ j → w.testBit j = v.testBit j := by
    rintro j (hj | hj)
    · simpa [Nat.testBit_mod_two_pow, hj] using congrArg (Nat.testBit · j) hlow
    · simpa [Nat.testBit_div_two_pow, hj] using congrArg (Nat.testBit · (j - (lo + n))) hhigh
  refine Nat.eq_of_testBit_eq fun j => ?_
  simp only [field, Nat.testBit_mod_two_pow, Nat.testBit_div_two_pow]
  by_cases hj : j < m
  · rw [hbit (j + k) (by omega)]
  · simp [hj]

theorem AgreeOutside.regAt_eq {k : Nat} (hk : k + 5 ≤ lo ∨ lo + n ≤ k) : regAt w k = regAt v k :=
  Fin.ext (h.field_eq hk)

theorem AgreeOutside.codeAt_eq {k : Nat} (hk : k + 3 ≤ lo ∨ lo + n ≤ k) : codeAt w k = codeAt v k :=
  Fin.ext (h.field_eq hk)

theorem AgreeOutside.bitNoAt_eq {k : Nat} (hk : k + 6 ≤ lo ∨ lo + n ≤ k) : bitNoAt w k = bitNoAt v k :=
  Fin.ext (h.field_eq hk)

theorem AgreeOutside.sprAt_eq {k : Nat} (hk : k + 11 ≤ lo ∨ lo + n ≤ k) : sprAt w k = sprAt v k :=
  Fin.ext (h.field_eq hk)

theorem AgreeOutside.bitsAt_eq {m k : Nat} (hk : k + m ≤ lo ∨ lo + n ≤ k) : bitsAt m w k = bitsAt m v k :=
  by
  rw [bitsAt_eq_iff, bitsAt, BitVec.toNat_ofNat]
  exact h.field_eq hk

end

section
variable {p : Encodings} {w v b : Nat} (hw : field w 0 8 = b) (hv : field v 0 8 = b)
include hw hv

/-- The `{RR}` instructions that ignore `sel3` (R108). -/
theorem decodeWord_eq_of_sel3 (hb : b = 0x42) (hfn : field w 26 6 ∈ [0x08, 0x09, 0x0C, 0x0D]) (h : AgreeOutside 23 3 w v) :
    decodeWord p w = decodeWord p v := by
  subst hb
  have hfn' := h.field_eq (k := 26) (m := 6) (by decide)
  simp only [List.mem_cons, List.not_mem_nil, or_false] at hfn
  rw [decodeWord_of_opcode42 p hw, decodeWord_of_opcode42 p hv]
  rcases hfn with hfn | hfn | hfn | hfn <;> simp [decodeRR, hfn, ← hfn', h.regAt_eq]

/-- CMP: `sel3` and the two bits of the target's slot above the code (R31, R108). -/
theorem decodeWord_eq_of_cmp (hb : b = 0x42) (hfn : field w 26 6 = 0x02) (h : AgreeOutside 21 5 w v) :
    decodeWord p w = decodeWord p v := by
  subst hb
  have hfn' := h.field_eq (k := 26) (m := 6) (by decide)
  rw [decodeWord_of_opcode42 p hw, decodeWord_of_opcode42 p hv]
  simp [decodeRR, hfn, ← hfn', h.regAt_eq, h.codeAt_eq]

/-- CMPI, BITI: the high bits of the target's slot (R31). -/
theorem decodeWord_eq_of_slot32 (hb : b ∈ [0x41, 0x4B]) (h : AgreeOutside 16 2 w v) :
    decodeWord p w = decodeWord p v := by
  simp only [List.mem_cons, List.not_mem_nil, or_false] at hb
  rcases hb with rfl | rfl <;> simp [decodeWord_of_opcode32, hw, hv, decode32, h.regAt_eq, h.codeAt_eq, h.bitsAt_eq]

/-- Bcc: bit 17, and the high bits of the register's slot (R31, R109 (c)). -/
theorem decodeWord_eq_of_bcc {lo n : Nat} (hb : b = 0x52) (hwin : (lo, n) ∈ [(17, 1), (11, 2)])
    (h : AgreeOutside lo n w v) : decodeWord p w = decodeWord p v := by
  subst hb
  simp only [List.mem_cons, List.not_mem_nil, or_false, Prod.mk.injEq] at hwin
  rcases hwin with ⟨rfl, rfl⟩ | ⟨rfl, rfl⟩ <;>
    simp [decodeWord_of_opcode32, hw, hv, decode32, decodeBcc, h.field_eq, h.codeAt_eq, h.bitsAt_eq]

/-- The container: bits 25:24 (R110). -/
theorem decodeWord_eq_of_container (hfree : p.containerFree = true) (hb : b = p.opcL24.toNat)
    (h : AgreeOutside 24 2 w v) : decodeWord p w = decodeWord p v := by
  subst hb
  simp [decodeWord_container hfree, hw, hv, decodeL24, decodeR, decodeCache, h.field_eq, h.regAt_eq]

/-- CACHE: the target's slot (R111). -/
theorem decodeWord_eq_of_cache (hfree : p.containerFree = true) (hb : b = p.opcL24.toNat) (hfn : field w 26 6 = 0x1B)
    (h : AgreeOutside 13 5 w v) : decodeWord p w = decodeWord p v := by
  subst hb
  have hfn' := h.field_eq (k := 26) (m := 6) (by decide)
  simp [decodeWord_container hfree, hw, hv, decodeL24, decodeCache, hfn, ← hfn', h.field_eq, h.regAt_eq]

/-- CMPI.48, CMPIL: the high bits of the target's slot (R31). -/
theorem decodeWord_eq_of_slot48 (hb : b ∈ [0x81, 0x82]) (h : AgreeOutside 16 2 w v) :
    decodeWord p w = decodeWord p v := by
  simp only [List.mem_cons, List.not_mem_nil, or_false] at hb
  rcases hb with rfl | rfl <;> simp [decodeWord_of_opcode48, hw, hv, decode48, h.regAt_eq, h.codeAt_eq, h.bitsAt_eq]

/-- CMPIL: the bits above its 24-bit immediate (R112). -/
theorem decodeWord_eq_of_cmpil (hb : b = 0x82) (h : AgreeOutside 42 6 w v) : decodeWord p w = decodeWord p v := by
  subst hb
  simp [decodeWord_of_opcode48, hw, hv, decode48, h.regAt_eq, h.codeAt_eq, h.bitsAt_eq]

/-- CAS: the bits above its displacement (R116 (b)). -/
theorem decodeWord_eq_of_cas (hb : b = 0x9D) (h : AgreeOutside 40 8 w v) : decodeWord p w = decodeWord p v := by
  subst hb
  simp [decodeWord_of_opcode48, hw, hv, decode48, h.regAt_eq, h.bitsAt_eq]

/-- The 48-bit loads and stores: `Sg3` (R113). -/
theorem decodeWord_eq_of_access48 (hb : b ∈ [0xA0, 0xA1, 0xA4, 0xA5, 0xA6, 0xB3]) (h : AgreeOutside 45 3 w v) :
    decodeWord p w = decodeWord p v := by
  simp only [List.mem_cons, List.not_mem_nil, or_false] at hb
  rcases hb with rfl | rfl | rfl | rfl | rfl | rfl <;>
    simp [decodeWord_of_opcode48, hw, hv, decode48, h.regAt_eq, h.bitsAt_eq]

/-- MF, MT: the bits above the number (R114). -/
theorem decodeWord_eq_of_spr (hb : b ∈ [0xA8, 0xA9]) (h : AgreeOutside 24 24 w v) : decodeWord p w = decodeWord p v := by
  simp only [List.mem_cons, List.not_mem_nil, or_false] at hb
  rcases hb with rfl | rfl <;> simp [decodeWord_of_opcode48, hw, hv, decode48, h.regAt_eq, h.sprAt_eq]

/-- The bit fields: the bits above `op2` (R115). -/
theorem decodeWord_eq_of_bitField (hb : b ∈ [0xAA, 0xAB]) (h : AgreeOutside 32 16 w v) :
    decodeWord p w = decodeWord p v := by
  simp only [List.mem_cons, List.not_mem_nil, or_false] at hb
  rcases hb with rfl | rfl <;>
    simp [decodeWord_of_opcode48, hw, hv, decode48, decodeBFAA, decodeBFAB, h.field_eq, h.regAt_eq, h.bitsAt_eq,
      h.bitNoAt_eq]

/-- The 64-bit forms: the bits above the immediate (R117). -/
theorem decodeWord_eq_of_shifted (hb : b ∈ [0xE0, 0xE1, 0xE8, 0xE9, 0xEA]) (h : AgreeOutside 58 6 w v) :
    decodeWord p w = decodeWord p v := by
  simp only [List.mem_cons, List.not_mem_nil, or_false] at hb
  rcases hb with rfl | rfl | rfl | rfl | rfl <;>
    simp [decodeWord_of_opcode64, hw, hv, decode64, h.regAt_eq, h.codeAt_eq, h.bitsAt_eq]

/-- CMPIU: the high bits of the target's slot (R31). -/
theorem decodeWord_eq_of_slot64 (hb : b = 0xE1) (h : AgreeOutside 16 2 w v) : decodeWord p w = decodeWord p v := by
  subst hb
  simp [decodeWord_of_opcode64, hw, hv, decode64, h.regAt_eq, h.codeAt_eq, h.bitsAt_eq]

end

/-- Settles O6: every field that decides the instruction or is an operand of it lies outside the unused bits. -/
theorem unusedBitsIgnored : Obligations.UnusedBitsIgnored := by
  intro p w v agree op c alike
  have hopcode : ∀ {b}, op b → field w 0 8 = b ∧ field v 0 8 = b := fun h => by simpa [field] using h
  refine ⟨?cmp, ?sel3, ?biti, ?cmpi, ?bccBit, ?bccSlot, ?container, ?cache, ?cmpi48, ?cmpilSlot, ?cmpil, ?cas, ?access,
    ?spr, ?bitField, ?shifted, ?cmpiu⟩
  case cmp => exact fun ho => (hopcode ho).elim (decodeWord_eq_of_cmp · · rfl)
  case sel3 => exact fun ho => (hopcode ho).elim (decodeWord_eq_of_sel3 · · rfl)
  case biti | cmpi => exact fun ho => (hopcode ho).elim (decodeWord_eq_of_slot32 · · (by decide))
  case bccBit | bccSlot => exact fun ho => (hopcode ho).elim (decodeWord_eq_of_bcc · · rfl (by decide))
  case container => exact fun hfree ho => (hopcode ho).elim (decodeWord_eq_of_container · · hfree rfl)
  case cache => exact fun hfree ho => (hopcode ho).elim (decodeWord_eq_of_cache · · hfree rfl)
  case cmpi48 | cmpilSlot => exact fun ho => (hopcode ho).elim (decodeWord_eq_of_slot48 · · (by decide))
  case cmpil => exact fun ho => (hopcode ho).elim (decodeWord_eq_of_cmpil · · rfl)
  case cas => exact fun ho => (hopcode ho).elim (decodeWord_eq_of_cas · · rfl)
  case access => exact fun b hb ho => (hopcode ho).elim (decodeWord_eq_of_access48 · · hb)
  case spr => exact fun b hb ho => (hopcode ho).elim (decodeWord_eq_of_spr · · hb)
  case bitField => exact fun b hb ho => (hopcode ho).elim (decodeWord_eq_of_bitField · · hb)
  case shifted => exact fun b hb ho => (hopcode ho).elim (decodeWord_eq_of_shifted · · hb)
  case cmpiu => exact fun ho => (hopcode ho).elim (decodeWord_eq_of_slot64 · · rfl)

/-- Settles O8: the words are decoded. -/
theorem wordsOfTheSpec : Obligations.WordsOfTheSpec := by
  refine ⟨?_, ?_, ?_, ?_, ?_, ?_, ?_, ?_, ?_, ?_, ?_, ?_, ?_, ?_, ?_, ?_⟩ <;> decide

end Sys2Proof
end

section
/-! What every instruction and every step keeps, by cases on the forms that an instruction can end in (`Completes`). -/

namespace Sys2Proof.Machine

/-! ### What the forms leave alone -/

/-- Data are as before where the fields that hold them are. -/
theorem sameData_of_eq {s t : State} (hregs : t.regs = s.regs) (hpreds : t.preds = s.preds) (hmem : t.mem = s.mem) :
    SameData s t :=
  ⟨fun r _ => by simp only [State.reg, hregs], fun p _ => by simp only [State.pred, hpreds], fun a => by rw [hmem]⟩

/-- The mode, the mask, their shadows and the CLI count are as before. -/
structure SameMode (s t : State) : Prop where
  im : t.im = s.im
  km : t.km = s.km
  pim : t.pim = s.pim
  pkm : t.pkm = s.pkm
  cliPending : t.cliPending = s.cliPending

/-- A write of a special register leaves the mode alone. -/
theorem State.writeSpr_sameMode {s t : State} {n : Nat} {v : Word} (h : s.writeSpr n v = some t) : SameMode s t := by
  rcases State.writeSpr_state h with rfl | rfl | rfl | rfl | rfl | rfl | rfl <;> constructor <;> rfl

/-- A write of a special register leaves the registers, the pc, memory, TICK and the model's own fields alone. -/
theorem State.writeSpr_frame {s t : State} {n : Nat} {v : Word} (h : s.writeSpr n v = some t) :
    t.regs = s.regs ∧ t.pc = s.pc ∧ t.mem = s.mem ∧ t.tick = s.tick ∧ t.inputs = s.inputs ∧ t.platform = s.platform ∧
      t.draws = s.draws := by
  rcases State.writeSpr_state h with rfl | rfl | rfl | rfl | rfl | rfl | rfl <;>
    exact ⟨rfl, rfl, rfl, rfl, rfl, rfl, rfl⟩

/-- An instruction leaves the mode alone, or enters a trap, or is one of those that set mode or mask in kernel mode. -/
theorem Completes.mode {i : Instr} {s t : State} (h : Completes i s t) :
    SameMode s t ∨ (∃ n, i = .int n ∧ t = s.trapEnter (s.npc 2) n none) ∨ (∃ e addr, s.raise e addr = .next t) ∨
      (s.km = true ∧ (t = s.trapReturn ∨ t.km = s.km ∧ t.pkm = s.pkm ∧ (t.cliPending ≠ 0 → t.im = true))) := by
  cases h with
  | int n hi => exact .inr (.inl ⟨n, hi, rfl⟩)
  | trap e addr _ hr => exact .inr (.inr (.inl ⟨e, addr, hr⟩))
  | ret _ hk => exact .inr (.inr (.inr ⟨hk, .inl rfl⟩))
  | cli d _ hk _ => exact .inr (.inr (.inr ⟨hk, .inr ⟨rfl, rfl, by simp⟩⟩))
  | sei _ hk => exact .inr (.inr (.inr ⟨hk, .inr ⟨rfl, rfl, by simp⟩⟩))
  | mt n ra u _ hw =>
    obtain ⟨him, hkm, hpim, hpkm, hcli⟩ := State.writeSpr_sameMode hw
    exact .inl ⟨him, hkm, hpim, hpkm, hcli⟩
  | _ => exact .inl (by constructor <;> simp)

/-- No instruction changes an open parameter, the inputs or the draw counter. -/
theorem Completes.environment {i : Instr} {s t : State} (h : Completes i s t) :
    t.platform = s.platform ∧ t.inputs = s.inputs ∧ t.draws = s.draws := by
  cases h with
  | trap e addr _ hr =>
    obtain ⟨a, -, rfl⟩ := State.raise_next hr
    simp
  | mt n ra u _ hw =>
    obtain ⟨-, -, -, -, hin, hpl, hdr⟩ := State.writeSpr_frame hw
    exact ⟨hpl, hin, hdr⟩
  | _ => simp

/-- An instruction leaves memory alone, or stores a word. -/
theorem Completes.memory {i : Instr} {s t : State} (h : Completes i s t) :
    t.mem = s.mem ∨ storesMemory i = true ∧ ∃ ea v : Word, t.mem = s.mem.store ea 8 v.toNat := by
  cases h with
  | store ea v _ hs => exact .inr ⟨hs, ea, v, rfl⟩
  | swap ea v old rt _ hs => exact .inr ⟨hs, ea, v, by simp⟩
  | trap e addr _ hr =>
    obtain ⟨a, -, rfl⟩ := State.raise_next hr
    simp
  | mt n ra u _ hw =>
    obtain ⟨-, -, hmem, -⟩ := State.writeSpr_frame hw
    exact .inl hmem
  | _ => simp

/-- An instruction writes at most one general register, by `setReg`. -/
theorem Completes.registers {i : Instr} {s t : State} (h : Completes i s t) :
    t.regs = s.regs ∨ ∃ rt v, t.regs = (s.setReg rt v).regs := by
  cases h with
  | reg rt v => exact .inr ⟨rt, v, rfl⟩
  | link rt target => exact .inr ⟨rt, _, rfl⟩
  | swap ea v old rt => exact .inr ⟨rt, old, by simp only [State.advance_regs]; unfold State.setReg; split <;> rfl⟩
  | tick rt n v => exact .inr ⟨rt, v, by simp only [State.advance_regs]; unfold State.setReg; split <;> rfl⟩
  | trap e addr _ hr =>
    obtain ⟨a, -, rfl⟩ := State.raise_next hr
    exact .inl rfl
  | mt n ra u _ hw =>
    obtain ⟨hregs, -⟩ := State.writeSpr_frame hw
    exact .inl hregs
  | _ => exact .inl rfl

/-! ### The invariant of every state (O16) -/

/-- No write reaches the storage of r0. -/
theorem State.setReg_regs_zero (s : State) (r : Reg) (v : Word) : (s.setReg r v).regs[0] = s.regs[0] := by
  unfold State.setReg
  split
  · rfl
  · next h =>
    have hne : (r : Nat) ≠ 0 := fun e => h (Fin.ext e)
    simp [Vector.getElem_set_ne _ _ hne]

/-- A trap entry keeps the invariant. -/
theorem State.Ok.trapEnter {s : State} (h : s.Ok) (ret : Word) (vec : BitVec 9) (code : Option Word) :
    (s.trapEnter ret vec code).Ok :=
  ⟨h.memory, h.zeroRegister, fun _ => rfl⟩

/-- Raising keeps the invariant. -/
theorem State.Ok.raise {s t : State} (h : s.Ok) {e : ExcKind} {addr : Option Word} (hr : s.raise e addr = .next t) :
    t.Ok := by
  obtain ⟨a, -, rfl⟩ := State.raise_next hr
  exact h.trapEnter _ _ _

/-- Every instruction keeps the invariant. -/
theorem State.Ok.completes {i : Instr} {s t : State} (h : s.Ok) (hc : Completes i s t) : t.Ok where
  memory := by
    rcases hc.memory with hm | ⟨-, ea, v, hm⟩ <;> rw [hm]
    · exact h.memory
    · exact Memory.wf_store 8 _ _ _ h.memory
  zeroRegister := by
    rcases hc.registers with hr | ⟨rt, v, hr⟩ <;> simp only [hr]
    · exact h.zeroRegister
    · rw [State.setReg_regs_zero, h.zeroRegister]
  pendingMasked := by
    rcases hc.mode with hm | ⟨n, -, rfl⟩ | ⟨e, addr, hr⟩ | ⟨-, rfl | ⟨-, -, hp⟩⟩
    · rw [hm.cliPending, hm.im]; exact h.pendingMasked
    · exact fun _ => rfl
    · exact (h.raise hr).pendingMasked
    · exact fun hz => absurd rfl hz
    · exact hp

/-- The count of a pending CLI keeps the invariant: the mask clears only where the count ends. -/
theorem State.Ok.countdown {s : State} (h : s.Ok) : s.countdown.Ok where
  memory := by simpa using h.memory
  zeroRegister := by simpa using h.zeroRegister
  pendingMasked hp := by
    have hcount : s.cliPending - 1 ≠ 0 := by simpa using hp
    have him := h.pendingMasked (by omega)
    have hne : s.cliPending ≠ 1 := by omega
    simp [him, hne]

/-- The end of a step keeps the invariant. -/
theorem State.Ok.endStep {s : State} (h : s.Ok) : s.endStep.Ok := ⟨h.memory, h.zeroRegister, h.pendingMasked⟩

/-- Settles O16: each of the ways in which a step leads to a state keeps the invariant. -/
theorem stepKeepsOk : Obligations.StepKeepsOk := by
  intro s t h hstep
  rcases step_next hstep with ⟨vec, -, rfl⟩ | ⟨e, addr, u, hr, rfl⟩ | ⟨i, u, hexec, rfl⟩
  · exact (h.trapEnter _ _ _).endStep
  · exact (h.raise hr).endStep
  · have hu := h.completes (exec_completes hexec)
    split
    · exact hu.endStep
    · exact hu.countdown.endStep

/-! ### Kernel mode (O17, O19) -/

/-- A trap entry keeps kernel mode saved where it was set. -/
theorem State.KernelLocked.trapEnter {s : State} (h : s.KernelLocked) (ret : Word) (vec : BitVec 9) (code : Option Word) :
    (s.trapEnter ret vec code).KernelLocked :=
  let ⟨hkm, _⟩ := h
  ⟨rfl, hkm⟩

theorem State.KernelLocked.raise {s t : State} (h : s.KernelLocked) {e : ExcKind} {addr : Option Word}
    (hr : s.raise e addr = .next t) : t.KernelLocked := by
  obtain ⟨a, -, rfl⟩ := State.raise_next hr
  exact h.trapEnter _ _ _

theorem State.KernelLocked.endStep {s : State} (h : s.KernelLocked) : s.endStep.KernelLocked := h

/-- Every instruction keeps kernel mode locked: a trap return takes the saved mode, which is kernel mode. -/
theorem State.KernelLocked.completes {i : Instr} {s t : State} (h : s.KernelLocked) (hc : Completes i s t) :
    t.KernelLocked := by
  obtain ⟨hkm, hpkm⟩ := h
  rcases hc.mode with hm | ⟨n, -, rfl⟩ | ⟨e, addr, hr⟩ | ⟨-, rfl | ⟨hk, hp, -⟩⟩
  · exact ⟨hm.km.trans hkm, hm.pkm.trans hpkm⟩
  · exact ⟨rfl, hkm⟩
  · exact State.KernelLocked.raise ⟨hkm, hpkm⟩ hr
  · exact ⟨hpkm, hpkm⟩
  · exact ⟨hk.trans hkm, hp.trans hpkm⟩

/-- Settles O17: each of the ways in which a step leads to a state keeps kernel mode locked. -/
theorem stepKeepsKernelLocked : Obligations.StepKeepsKernelLocked := by
  intro s t h hstep
  rcases step_next hstep with ⟨vec, -, rfl⟩ | ⟨e, addr, u, hr, rfl⟩ | ⟨i, u, hexec, rfl⟩
  · exact (h.trapEnter _ _ _).endStep
  · exact (h.raise hr).endStep
  · obtain ⟨hkm, hpkm⟩ := h.completes (exec_completes hexec)
    split
    · exact ⟨hkm, hpkm⟩
    · exact ⟨by simpa using hkm, by simpa using hpkm⟩

/-- Settles O19: in user mode only the first three ways to end are open, and a trap entry saves user mode and the mask. -/
theorem userModeConfined : Obligations.UserModeConfined := by
  intro i s t huser hexec
  rcases (exec_completes hexec).mode with hm | ⟨n, hi, rfl⟩ | ⟨e, addr, hr⟩ | ⟨hk, -⟩
  · exact .inr ⟨hm.km.trans huser, hm.im, hm.pkm, hm.pim, hm.cliPending⟩
  · exact .inl ⟨.inl ⟨n, hi⟩, rfl, rfl, huser, rfl⟩
  · have htrap : EntersTrap s t := ⟨e, addr, hr⟩
    obtain ⟨a, -, rfl⟩ := State.raise_next hr
    exact .inl ⟨.inr htrap, rfl, rfl, huser, rfl⟩
  · rw [huser] at hk; cases hk

/-! ### The environment, memory and the registers that few instructions write (O18, O20, O21, O23) -/

/-- Settles O18: no way in which a step leads to a state touches the parameters, and each ends the step. -/
theorem stepKeepsPlatform : Obligations.StepKeepsPlatform := by
  intro s t hstep
  rcases step_next hstep with ⟨vec, -, rfl⟩ | ⟨e, addr, u, hr, rfl⟩ | ⟨i, u, hexec, rfl⟩
  · exact ⟨rfl, rfl, rfl⟩
  · obtain ⟨a, -, rfl⟩ := State.raise_next hr
    exact ⟨rfl, rfl, rfl⟩
  · obtain ⟨hpl, hin, hdr⟩ := (exec_completes hexec).environment
    split <;> simp [hpl, hin, hdr]

/-- Settles O20: the forms that store are those of the instructions that can. -/
theorem memoryWriters : Obligations.MemoryWriters := by
  intro i s t hexec hi a
  rcases (exec_completes hexec).memory with hm | ⟨hs, -⟩
  · rw [hm]
  · rw [hi] at hs; cases hs

/-- An instruction that writes no compare register leaves them alone. -/
theorem Completes.preds {i : Instr} {s t : State} (h : Completes i s t) (hi : writesCompareRegister i = false) :
    t.preds = s.preds := by
  cases h with
  | pred pt v _ hw => rw [hi] at hw; cases hw
  | mt n ra u him => subst him; cases hi
  | trap e addr _ hr =>
    obtain ⟨a, -, rfl⟩ := State.raise_next hr
    rfl
  | _ => simp

/-- CMPIL ends by comparing where `eq` is set, and else only advances (R256). -/
theorem exec_cmpil (pt : PReg) (ra : Reg) (imm : BitVec 24) (s : State) :
    exec (.cmpil pt ra imm) s =
      if (s.pred pt).eq then s.finishPred pt (lowerFlags (s.reg ra) imm) 6 else s.finishNop 6 := rfl

/-- Settles O21: the checks write the other two flags back, and CMPIL with `eq` clear only advances. -/
theorem compareRegisterWriters : Obligations.CompareRegisterWriters := by
  intro i s t hexec
  refine ⟨fun hi p _ => ?_, fun pt ra rb rc hi => ?_, fun pt ra imm hi heq p _ => ?_⟩
  · rw [State.pred, (exec_completes hexec).preds hi, ← State.pred]
  · rcases hi with rfl | rfl
    · rw [exec_chk] at hexec
      cases hexec
      simp
    · rw [exec_chku] at hexec
      cases hexec
      simp
  · subst hi
    rw [exec_cmpil, heq] at hexec
    cases hexec
    rfl

/-- Settles O23: of the forms that are not MT's, only a trap entry writes EPC or EXC, and only MF of TICK moves TICK. -/
theorem specialRegisterWriters : Obligations.SpecialRegisterWriters := by
  intro i s t hexec hmt
  cases exec_completes hexec with
  | int n hi => exact ⟨rfl, rfl, rfl, rfl, .inl ⟨n, hi⟩, .inr rfl, .inr rfl⟩
  | tick rt n v hi =>
    refine ⟨?_, ?_, ?_, ?_, .inr (.inr ?_), .inr ?_, .inl ⟨rt, n, hi⟩⟩ <;> simp
  | mt n ra u hi => exact absurd hi (hmt n ra)
  | trap e addr _ hr =>
    have htrap : EntersTrap s t := ⟨e, addr, hr⟩
    obtain ⟨a, -, rfl⟩ := State.raise_next hr
    exact ⟨rfl, rfl, rfl, rfl, .inr (.inl htrap), .inl htrap, .inr rfl⟩
  | _ => simp

/-! ### The pc (O22, O24) -/

/-- Settles O22: every form of an instruction that is no transfer ends by advancing, but for the entry of a trap. -/
theorem pcAdvances : Obligations.PcAdvances := by
  intro i s t hexec hi
  cases exec_completes hexec with
  | jump target ht | link rt target ht => rw [hi] at ht; cases ht
  | int n hint => subst hint; cases hi
  | ret hret => rcases hret with rfl | rfl | rfl <;> cases hi
  | cli d hcli | sei hcli => subst hcli; exact .inl rfl
  | tick rt n v hmf => subst hmf; exact .inl (by simp [byteLength])
  | mt n ra u hmt hw =>
    subst hmt
    obtain ⟨-, hpc, -⟩ := State.writeSpr_frame hw
    exact .inl (by rw [State.advance_pc, hpc]; rfl)
  | trap e addr _ hr => exact .inr ⟨e, addr, hr⟩
  | _ => exact .inl (by simp)

/-- The length of an instruction is even: instructions are made of parcels (R90). -/
theorem byteLength_even (i : Instr) : byteLength i % 2 = 0 := by
  have hlen := (encoding_fits i Config.encodings (by decide)).2
  rw [lengthOf] at hlen
  omega

/-- Bit 0 of a sum of words. -/
theorem toNat_add_mod_two (a b : Word) : (a + b).toNat % 2 = (a.toNat + b.toNat) % 2 := by
  rw [BitVec.toNat_add]; omega

/-- Bit 0 of a sign-extended value is its own. -/
theorem sext_mod_two {n : Nat} (hn : 0 < n) (d : BitVec n) : (sext d).toNat % 2 = d.toNat % 2 := by
  have hbit : (sext d).getLsbD 0 = d.getLsbD 0 := by rw [sext, BitVec.getLsbD_signExtend]; simp [hn]
  simp only [BitVec.getLsbD, Nat.testBit_zero, decide_eq_decide] at hbit
  omega

/-- The displacement of Bcc is even (R211). -/
theorem branchDisp_mod_two (d : BitVec 14) : (branchDisp d).toNat % 2 = 0 := by
  rw [branchDisp, sext_mod_two (by decide), BitVec.toNat_append]
  simp [Nat.shiftLeft_eq]

/-- The address after an instruction at an even pc is even. -/
theorem State.npc_even {s : State} (hs : s.pc.toNat % 2 = 0) {len : Nat} (hlen : len % 2 = 0) :
    (s.npc len).toNat % 2 = 0 := by
  rw [State.npc, toNat_add_mod_two, BitVec.toNat_ofNat]
  omega

/-- An even displacement from there is an even address. -/
theorem State.target_even {s : State} (hs : s.pc.toNat % 2 = 0) {len : Nat} {d : Word} (hlen : len % 2 = 0)
    (hd : d.toNat % 2 = 0) : (s.npc len + d).toNat % 2 = 0 := by
  have hn := State.npc_even hs hlen
  rw [toNat_add_mod_two]
  omega

/-- A branch with an even displacement keeps the pc even, taken or not. -/
theorem State.finishBranch_even {s t : State} (hs : s.pc.toNat % 2 = 0) {taken : Bool} {d : Word} {len : Nat}
    (hlen : len % 2 = 0) (hd : d.toNat % 2 = 0) (h : s.finishBranch taken d len = .next t) : t.pc.toNat % 2 = 0 := by
  cases taken with
  | false => cases h; exact State.npc_even hs hlen
  | true => cases h; exact State.target_even hs hlen hd

/-- What a well-formed instruction's displacement is (R220). -/
theorem sext_even_of_evenDisp {n : Nat} (hn : 0 < n) {d : BitVec n} (h : evenDisp d = true) : (sext d).toNat % 2 = 0 := by
  rw [sext_mod_two hn]
  simpa [evenDisp] using h

/-- Settles O24: what only advances does so by an even length, and each transfer goes by an even displacement from there. -/
theorem pcStaysEven : Obligations.PcStaysEven := by
  intro i s t hwf hdata hs hexec
  cases ht : transfersControl i with
  | false =>
    rcases pcAdvances i s t hexec ht with hpc | htrap
    · exact .inl (by rw [hpc]; exact State.npc_even hs (byteLength_even i))
    · exact .inr htrap
  | true =>
    refine .inl ?_
    cases i
    case bf => cases hexec; exact State.npc_even hs rfl
    case bt => cases hexec; exact State.target_even hs rfl (branchDisp_mod_two _)
    case beq | bne | ble | bgt | bge | blt | bleu | bgtu | bgeu | bltu | bsig =>
      exact State.finishBranch_even hs rfl (branchDisp_mod_two _) hexec
    case beqs | bnes => exact State.finishBranch_even hs rfl (sext_even_of_evenDisp (by decide) hwf) hexec
    case jal | jal48 | jal16 =>
      cases hexec
      exact State.target_even hs rfl (sext_even_of_evenDisp (by decide) hwf)
    case int | rts | rti | rtd | rte | jalr => cases hdata
    all_goals cases ht

end Sys2Proof.Machine
end

section
/-! The step around an instruction, reset, and taking exceptions (R47, R77, R121, R122, R312, R348 to R356, R363). -/

namespace Sys2Proof.Machine

/-! ### The step, by what the fetch and the decoder answer -/

section
variable {s : State} (hu : s.Undisturbed)
include hu

/-- A fetch that raises is the whole step. -/
theorem step_of_fetch_raised {e : ExcKind} {addr : Option Word} (hf : s.fetch = .raised e addr) :
    step s = endOf id (s.raise e addr) := by
  simp only [step, cycle, State.interrupt_of_undisturbed hu, hf]

/-- A word that holds an instruction is run. -/
theorem step_of_decoded {w : Nat} {i : Instr} (hf : s.fetch = .value w)
    (hd : decodeWord s.platform.encodings w = .ok i) : step s = runInstr exec i s := by
  simp only [step, cycle, State.interrupt_of_undisturbed hu, hf, hd]

/-- A word that holds none raises. -/
theorem step_of_rejected {w : Nat} {r : Reject} (hf : s.fetch = .value w)
    (hd : decodeWord s.platform.encodings w = .error r) : step s = endOf id (s.raise .illegalInstruction none) := by
  simp only [step, cycle, State.interrupt_of_undisturbed hu, hf, hd]

end

/-- The length of an instruction in bytes, by its first byte. -/
theorem lengthOf_byte (b : Byte) : lengthOf b.toNat = 2 * (b.toNat / 64 + 1) := by
  have := b.isLt
  rw [lengthOf]
  omega

/-- Settles O9: the bytes make up the length of their first, are fetched as their number and decoded by it. -/
theorem stepRunsDecodedInstruction : Obligations.StepRunsDecodedInstruction := by
  intro s bs i hu hpc hmem hfaults hdec
  match bs, hdec with
  | b :: bs, hdec =>
    obtain ⟨hle, hrest, hword⟩ := decodeBytes_ok hdec
    have hge : (b :: bs).length ≤ lengthOf b.toNat := List.drop_eq_nil_iff.1 hrest.symm
    rw [List.take_of_length_le hge] at hword
    exact step_of_decoded hu (s.fetch_of_holds _ b hpc hmem rfl (Nat.le_antisymm hge hle) hfaults) hword

/-! ### What the step adds around an instruction -/

/-- Only a CLI in kernel mode with the mask set draws a delay (R312). -/
theorem startsDelay_iff (i : Instr) (s : State) : startsDelay i s = true ↔ i = .cli ∧ s.km = true ∧ s.im = true := by
  unfold startsDelay
  split
  · simp
  · next h => simpa using fun hi => absurd hi h

/-- With no CLI pending nothing is counted. -/
theorem State.countdown_of_none {s : State} (h : s.cliPending = 0) : s.countdown = s := if_pos h

/-- Settles O10: the end of the step, with the count where a CLI is pending that has not just drawn its delay. -/
theorem stepBookkeeping : Obligations.StepBookkeeping := by
  intro i s
  refine ⟨fun f h => by rw [runInstr, h]; rfl, fun r h => by rw [runInstr, h]; rfl, fun t h => ?_⟩
  rw [runInstr, h]
  split
  · next hnone =>
    have hend : (if startsDelay i s then t else t.countdown) = t := by
      rcases hnone with h0 | hcli
      · rw [State.countdown_of_none h0, ite_self]
      · rw [if_pos ((startsDelay_iff i s).2 hcli)]
    simp only [endOf, hend]
    rfl
  · next hsome =>
    push Not at hsome
    obtain ⟨hpending, hcli⟩ := hsome
    have hstart : ¬ startsDelay i s = true := fun hs =>
      let ⟨hi, hk, him⟩ := (startsDelay_iff i s).1 hs
      hcli hi hk him
    simp only [endOf, if_neg hstart, State.countdown, if_neg hpending]
    by_cases h1 : t.cliPending = 1 <;> simp [State.endStep, h1]

/-! ### Interrupts and raising before an instruction -/

/-- The address of a vector's handler as a number (R353). -/
theorem State.vectorAddress_eq (s : State) (vec : BitVec 9) :
    s.vectorAddress vec = s.vba + BitVec.ofNat 64 (16 * vec.toNat) := by
  rw [State.vectorAddress]
  congr 1

/-- Settles O11: the step is the entry of the interrupt's trap, without a cause code. -/
theorem interruptTaken : Obligations.InterruptTaken := by
  intro s vec him hirq
  have htaken : s.interrupt = some vec := by simp [State.interrupt, him, hirq]
  refine ⟨(s.takeInterrupt vec).endStep, by simp only [step, cycle, htaken], s.vectorAddress_eq vec,
    sameData_of_eq rfl rfl rfl, ?_⟩
  constructor <;> rfl

/-- An odd pc raises before any parcel is asked for (R77). -/
theorem State.fetch_of_odd {s : State} (h : s.pc.toNat % 2 = 1) : s.fetch = .raised .misalignedFetch none := by
  simp [State.fetch, h]

/-- A refused first parcel at an even pc raises. -/
theorem State.fetch_of_first_refused {s : State} (hpc : s.pc.toNat % 2 = 0) (hf : s.memFault s.pc 2 .fetch ≠ none) :
    s.fetch = .raised .fetchFault (some s.pc) := by
  simp [State.fetch, hpc, State.fetchParcels, Option.isSome_iff_ne_none.2 hf]

/-- A first parcel that is read gives the number of parcels that are asked for. -/
theorem State.fetch_of_first_read {s : State} {b c : Byte} {bs : List Byte} (hpc : s.pc.toNat % 2 = 0)
    (hmem : s.mem.HoldsBytes s.pc (b :: c :: bs)) (hf : s.memFault s.pc 2 .fetch = none) :
    s.fetch = s.fetchParcels s.pc (lengthOf b.toNat / 2) := by
  obtain ⟨h1, h2, -⟩ := Memory.holdsBytes_cons hmem
  have hfirst : s.fetchParcels s.pc 1 = .value (b.toNat + 256 * c.toNat) := by
    simp [State.fetchParcels, hf, Memory.load_parcel h1 h2]
  have hlow : (b.toNat + 256 * c.toNat) % 256 = b.toNat := by have := b.isLt; omega
  simp only [State.fetch, hpc, hfirst, hlow]
  rfl

/-- A refused parcel within the length that the first one gives raises, the parcels before it read. -/
theorem State.fetch_of_refused {s : State} {bs : List Byte} {k : Nat} (hpc : s.pc.toNat % 2 = 0)
    (hlen : bs.length = 2 * k) (hmem : s.mem.HoldsBytes s.pc bs)
    (hread : ∀ j < k, s.memFault (s.pc + BitVec.ofNat 64 (2 * j)) 2 .fetch = none)
    (hrefused : s.memFault (s.pc + BitVec.ofNat 64 (2 * k)) 2 .fetch ≠ none)
    (hwithin : k = 0 ∨ ∃ b, bs[0]? = some b ∧ 2 * k < 2 * (b.toNat / 64 + 1)) :
    s.fetch = .raised .fetchFault (some (s.pc + BitVec.ofNat 64 (2 * k))) := by
  match k, bs, hlen with
  | 0, _, _ =>
    simp only [Nat.mul_zero, BitVec.add_zero] at hrefused ⊢
    exact State.fetch_of_first_refused hpc hrefused
  | k + 1, b :: c :: bs, hlen =>
    obtain ⟨b', hb', hlt⟩ := hwithin.resolve_left (Nat.succ_ne_zero k)
    obtain rfl : b = b' := by simpa using hb'
    rw [State.fetch_of_first_read hpc hmem (by simpa using hread 0 (Nat.succ_pos k))]
    have hk : k + 1 < lengthOf b.toNat / 2 := by rw [lengthOf_byte]; omega
    exact s.fetchParcels_refused (k + 1) _ s.pc _ hk hlen hmem hread hrefused

/-- Settles O12: an odd pc and a refused parcel raise in the fetch, a reserved encoding in the decoder. -/
theorem fetchRaises : Obligations.FetchRaises := by
  intro s bs hu
  refine ⟨fun hodd => ?_, fun k hpc hlen hmem hread hrefused hwithin => ?_, fun r hpc hmem hfirst hread hdec => ?_⟩
  · exact stepRaises_of_eq (step_of_fetch_raised hu (State.fetch_of_odd hodd))
  · exact stepRaises_of_eq (step_of_fetch_raised hu (State.fetch_of_refused hpc hlen hmem hread hrefused hwithin))
  · obtain ⟨b, hb, hlen⟩ := hfirst
    rw [← lengthOf_byte] at hlen
    have hf := s.fetch_of_holds bs b hpc hmem hb hlen hread
    match bs, hb with
    | b' :: bs, hb =>
      obtain rfl : b' = b := by simpa using hb
      have happ := decodeBytes_append s.platform.encodings [] hlen
      rw [List.append_nil, hdec] at happ
      cases hw : decodeWord s.platform.encodings (wordOfBytes (b' :: bs)) with
      | ok i => rw [hw] at happ; cases happ
      | error r => exact stepRaises_of_eq (step_of_rejected hu hf hw)

/-! ### Reset -/

/-- Every register reads zero at reset, the model's choice but for r0 (log 2). -/
theorem State.reset_reg (r : Reg) : State.reset.reg r = 0 := by
  simp [State.reg, State.reset]

/-- Settles O13: the fields of the state after reset. -/
theorem resetValues : Obligations.ResetValues := ⟨State.reset_reg 0, rfl, rfl, rfl⟩

/-- Settles O14: the fetch finds no byte at address 0. -/
theorem resetModelChoices : Obligations.ResetModelChoices := by
  have hpred : ∀ p, State.reset.pred p = ⟨false, false, false⟩ := fun p => by simp [State.pred, State.reset]
  have hstep : step State.reset = .fault (.unspecifiedMemory 0) := rfl
  exact ⟨rfl, State.reset_reg, hpred, rfl, rfl, rfl, rfl, rfl, rfl, rfl, rfl, rfl, fun _ => rfl, hstep⟩

/-- Settles O15: reset has empty memory, zero registers and kernel mode, saved as well. -/
theorem resetOk : Obligations.ResetOk := ⟨⟨Memory.wf_reset, rfl, fun _ => rfl⟩, rfl, rfl⟩

/-! ### Terminal faults and traps (O25) -/

/-- The state on a platform that vectors no exception. -/
def State.untrapped (s : State) : State := { s with platform := { s.platform with traps := [] } }

/-- Where `r₀` ends in a terminal exception, it is one of `s`, and `r` raises it. -/
def Mirrors (s : State) (r₀ r : Result) : Prop :=
  ∀ e pc addr, r₀ = .fault (.exception e pc addr) → pc = s.pc ∧ r = s.raise e addr

section
variable {s : State}

theorem mirrors_of_next {r₀ r : Result} (h : ∃ t, r₀ = .next t) : Mirrors s r₀ r := by
  obtain ⟨t, rfl⟩ := h
  exact nofun

theorem mirrors_of_refused {r₀ r : Result} (h : ∃ x, r₀ = .refused x) : Mirrors s r₀ r := by
  obtain ⟨t, rfl⟩ := h
  exact nofun

theorem mirrors_raise (e : ExcKind) (addr : Option Word) : Mirrors s (s.untrapped.raise e addr) (s.raise e addr) := by
  intro e' pc addr' h
  rw [State.raise_of_none addr rfl] at h
  cases h
  exact ⟨rfl, rfl⟩

theorem mirrors_ite {c : Prop} [Decidable c] {a₀ b₀ a b : Result} (ha : Mirrors s a₀ a) (hb : Mirrors s b₀ b) :
    Mirrors s (if c then a₀ else b₀) (if c then a else b) := by
  split
  · exact ha
  · exact hb

theorem mirrors_run {α : Type} (x : Access α) {k₀ k : α → Result} (hk : ∀ v, Mirrors s (k₀ v) (k v)) :
    Mirrors s (x.run s.untrapped k₀) (x.run s k) := by
  cases x with
  | value v => exact hk v
  | raised e addr => exact mirrors_raise e addr
  | missing addr => exact nofun

theorem mirrors_guarded (needs : Bool) {k₀ k : Result} (hk : Mirrors s k₀ k) :
    Mirrors s (s.untrapped.guarded needs k₀) (s.guarded needs k) :=
  mirrors_ite (mirrors_raise _ _) hk

theorem mirrors_finishLoad (rt : Reg) (ea : Word) (n : Nat) (ext : Word → Word) (len : Nat) :
    Mirrors s (s.untrapped.finishLoad rt ea n ext len) (s.finishLoad rt ea n ext len) :=
  mirrors_run (s.memRead ea n) fun _ => mirrors_of_next ⟨_, rfl⟩

theorem mirrors_finishLoadWord (rt : Reg) (ea : Word) (len : Nat) :
    Mirrors s (s.untrapped.finishLoadWord rt ea len) (s.finishLoadWord rt ea len) :=
  mirrors_ite (mirrors_of_next ⟨_, rfl⟩) (mirrors_finishLoad rt ea 8 zextLoaded len)

/-- A write and what follows it, where that leads to a state. -/
theorem mirrors_memWrite (ea : Word) (v : Word) {k₀ k : State → Result} (hk : ∀ t, ∃ u, k₀ t = .next u) :
    Mirrors s ((s.untrapped.memWrite ea 8 v).run s.untrapped k₀) ((s.memWrite ea 8 v).run s k) := by
  by_cases ha : ea.toNat % 8 = 0
  · cases hf : s.memFault ea 8 .store with
    | none =>
      rw [State.memWrite_allowed v ha (show s.untrapped.memFault ea 8 .store = none from hf)]
      exact mirrors_of_next (hk _)
    | some f =>
      have hf₀ : s.untrapped.memFault ea 8 .store = some f := hf
      rw [State.memWrite_faulted v ha hf, State.memWrite_faulted v ha hf₀]
      exact mirrors_raise _ _
  · rw [State.memWrite_misaligned v ha, State.memWrite_misaligned v ha]
    exact mirrors_raise _ _

theorem mirrors_finishStoreWord (rs : Reg) (ea : Word) (len : Nat) :
    Mirrors s (s.untrapped.finishStoreWord rs ea len) (s.finishStoreWord rs ea len) :=
  mirrors_memWrite ea (s.reg rs) fun _ => ⟨_, rfl⟩

theorem mirrors_cas (rt ra rb rc : Reg) (disp : BitVec 12) :
    Mirrors s (execCas rt ra rb rc disp s.untrapped) (execCas rt ra rb rc disp s) := by
  refine mirrors_ite (mirrors_raise _ _) (mirrors_run (s.memRead _ 8) fun old => mirrors_ite ?_ ?_)
  · exact mirrors_memWrite _ (s.reg rc) fun _ => ⟨_, rfl⟩
  · exact mirrors_of_next ⟨_, rfl⟩

/-- BIR and the breakout register alone cannot be read (R43; log 19). -/
theorem readNamed_eq_none_iff (r : Spr) : s.readNamed r = none ↔ r = .bir ∨ r = .breakout := by
  cases r <;> simp [State.readNamed]

/-- MID, FEAT, TICK and the breakout register alone cannot be written (R38, R39; log 19). -/
theorem writeNamed_eq_none_iff (v : Word) (r : Spr) :
    s.writeNamed v r = none ↔ r = .mid ∨ r = .feat ∨ r = .tick ∨ r = .breakout := by
  cases r <;> simp [State.writeNamed]

/-- Which numbers may be read does not rest on the vectors. -/
theorem readSpr_untrapped_none {n : Nat} (h : s.untrapped.readSpr n = none) : s.readSpr n = none := by
  have htarget : s.untrapped.sprTarget n = s.sprTarget n := rfl
  simp only [State.readSpr, Option.bind_eq_none_iff, htarget, readNamed_eq_none_iff] at h ⊢
  exact h

/-- Which numbers may be written does not rest on the vectors. -/
theorem writeSpr_untrapped_none {n : Nat} {v : Word} (h : s.untrapped.writeSpr n v = none) : s.writeSpr n v = none := by
  have htarget : s.untrapped.sprTarget n = s.sprTarget n := rfl
  simp only [State.writeSpr, Option.bind_eq_none_iff, htarget, writeNamed_eq_none_iff] at h ⊢
  exact h

theorem mirrors_mf (rt : Reg) (n : SprNo) : Mirrors s (execMf rt n s.untrapped) (execMf rt n s) := by
  refine mirrors_guarded s.platform.privMf ?_
  cases h : s.untrapped.readSpr n.val with
  | none =>
    rw [readSpr_untrapped_none h]
    exact mirrors_raise _ _
  | some vt => exact mirrors_of_next ⟨_, rfl⟩

theorem mirrors_mt (n : SprNo) (ra : Reg) : Mirrors s (execMt n ra s.untrapped) (execMt n ra s) := by
  refine mirrors_guarded s.platform.privMt ?_
  cases h : s.untrapped.writeSpr n.val (s.untrapped.reg ra) with
  | none =>
    rw [show s.writeSpr n.val (s.reg ra) = none from writeSpr_untrapped_none h]
    exact mirrors_raise _ _
  | some t => exact mirrors_of_next ⟨_, rfl⟩

/-- Every instruction that ends in a terminal exception where nothing is vectored raises that exception. -/
theorem exec_mirrors (i : Instr) : Mirrors s (exec i s.untrapped) (exec i s) := by
  cases i
  case lb | lbu | lh | lhu | lb48 | lbu48 | lh48 | lhu48 | lbux | lbx | lhux | lhx => exact mirrors_finishLoad _ _ _ _ _
  case lw | lw48 | lw16 | lwBp | lwSp => exact mirrors_finishLoadWord _ _ _
  case sw | sw48 | sw16 | swBp | swSp => exact mirrors_finishStoreWord _ _ _
  case cas => exact mirrors_cas _ _ _ _ _
  case mf => exact mirrors_mf _ _
  case mt => exact mirrors_mt _ _
  case addo | subo => exact mirrors_ite (mirrors_raise _ _) (mirrors_of_next ⟨_, rfl⟩)
  case div => exact mirrors_ite (mirrors_raise _ _) (mirrors_ite (mirrors_raise _ _) (mirrors_of_next ⟨_, rfl⟩))
  case cacheInvICache | cacheInvILine | cacheInvDCache | cacheInvDLine =>
    exact mirrors_guarded s.platform.privCache (mirrors_of_next ⟨_, rfl⟩)
  case cli => exact mirrors_guarded true (mirrors_ite (mirrors_of_next ⟨_, rfl⟩) (mirrors_of_next ⟨_, rfl⟩))
  case sei | rti | rte | rtd => exact mirrors_guarded true (mirrors_of_next ⟨_, rfl⟩)
  case cmpil => exact mirrors_ite (mirrors_of_next ⟨_, rfl⟩) (mirrors_of_next ⟨_, rfl⟩)
  case beq | bne | ble | bgt | bge | blt | bleu | bgtu | bgeu | bltu | bsig | beqs | bnes =>
    exact mirrors_ite (mirrors_of_next ⟨_, rfl⟩) (mirrors_of_next ⟨_, rfl⟩)
  case mrk1 | mrk2 | mrk3 | mrk4 | lc | lcu | lvwar | sb | sc | sh | swcr | biti48 | jsri | lws | lcl | lc48 | lcu48 |
      lwar | lvb | lvc | lvh | lvw | sb48 | sc48 | sh48 | swcr48 | llax => exact mirrors_of_refused ⟨_, rfl⟩
  all_goals exact mirrors_of_next ⟨_, rfl⟩

end

/-- Settles O25: the terminal fault and the trap are the two outcomes of one raise. -/
theorem trapsMirrorFaults : Obligations.TrapsMirrorFaults := by
  intro i s e pc addr h
  obtain ⟨hpc, hraise⟩ := exec_mirrors i e pc addr h
  exact ⟨hpc, raises_of_eq hraise⟩

/-! ### Trap entry and return (O26, O27, O28) -/

/-- RTI, RTE and RTD in kernel mode are the trap return (R319 to R321, R356). -/
theorem exec_trapReturn {s : State} (hk : s.km = true) {i : Instr} (hi : i ∈ [Instr.rti, .rte, .rtd]) :
    exec i s = .next s.trapReturn := by
  have hallowed : s.guarded true (.next s.trapReturn) = .next s.trapReturn := State.guarded_allowed _ (.inl hk)
  simp only [List.mem_cons, List.not_mem_nil, or_false] at hi
  rcases hi with rfl | rfl | rfl <;> exact hallowed

/-- A return straight after a trap entry: the saved address, the old mode and mask, the data untouched. -/
theorem State.trapReturn_trapEnter (s : State) (ret : Word) (vec : BitVec 9) (code : Option Word) :
    ∃ u, exec .rti (s.trapEnter ret vec code) = .next u ∧ u.pc = ret ∧ u.km = s.km ∧ u.im = s.im ∧ SameData s u :=
  ⟨_, exec_trapReturn rfl (by simp), rfl, rfl, rfl, sameData_of_eq rfl rfl rfl⟩

/-- Settles O26: each of the traps is a trap entry; the second one saves kernel mode and the set mask of the first. -/
theorem trapReturnUndoesTrap : Obligations.TrapReturnUndoesTrap := by
  intro s t
  refine ⟨fun e addr h => ?_, fun n h => ?_, fun e f addr addr' u h h' => ?_⟩
  · obtain ⟨a, -, rfl⟩ := State.raise_next h
    exact s.trapReturn_trapEnter _ _ _
  · cases h
    exact s.trapReturn_trapEnter _ _ _
  · obtain ⟨a, -, rfl⟩ := State.raise_next h
    obtain ⟨b, -, rfl⟩ := State.raise_next h'
    obtain ⟨v, hv, hpc, hkm, him, -⟩ :=
      State.trapReturn_trapEnter (s.trapEnter s.pc a.vector (some a.code)) _ b.vector _
    exact ⟨v, hv, hpc, hkm, him⟩

/-- Settles O27: EXC after raising is the code of the kind. -/
theorem causeCodesTellKindsApart : Obligations.CauseCodesTellKindsApart := by
  intro s t u e f a b hdiffer ht hu hexc
  obtain ⟨x, hx, rfl⟩ := State.raise_next ht
  obtain ⟨y, hy, rfl⟩ := State.raise_next hu
  exact hdiffer e f x y hx hy hexc

/-- Settles O28: INT is a trap entry, and the three returns are the trap return. -/
theorem trapInstructions : Obligations.TrapInstructions := by
  intro s
  refine ⟨fun n => ⟨s.trapEnter (s.npc 2) n none, rfl, s.vectorAddress_eq n, sameData_of_eq rfl rfl rfl, ?_⟩,
    fun hk i hi => ⟨s.trapReturn, exec_trapReturn hk hi, rfl, sameData_of_eq rfl rfl rfl, ?_⟩⟩ <;> constructor <;> rfl

end Sys2Proof.Machine
end

section
/-! Arithmetic, shifts and the operand forms as numbers (R97, R104, R117, R140 to R166, R238 to R241). -/

namespace Sys2Proof.Machine

/-! ### Completion -/

/-- What an instruction that ends by `finishReg` does, in the terms of claims. -/
theorem writes_of_finishReg {i : Instr} {s : State} {rt : Reg} {v v' : Word} {len : Nat}
    (h : exec i s = s.finishReg rt v len) (hv : v = v') : Writes i s rt v' len := by
  subst hv
  obtain ⟨t, ht, hrest⟩ := s.finishReg_spec rt v len
  exact ⟨t, h.trans ht, hrest⟩

/-! ### Operand forms as numbers -/

/-- A sign-extended value is the value as a signed number (R97). -/
theorem sext_eq_ofInt {n : Nat} (imm : BitVec n) : sext imm = BitVec.ofInt 64 imm.toInt := rfl

/-- The product with a power of two is a shift. -/
theorem shiftLeft_eq_ofInt {n : Nat} (a : BitVec n) (k : Nat) : a <<< k = BitVec.ofInt n (2 ^ k * a.toInt) := by
  have hpow : BitVec.ofInt n (2 ^ k) = BitVec.twoPow n k := by
    rw [show (2 : Int) ^ k = ((2 ^ k : Nat) : Int) by simp, BitVec.ofInt_natCast]
    exact BitVec.eq_of_toNat_eq (by rw [BitVec.toNat_ofNat, BitVec.toNat_twoPow])
  rw [BitVec.ofInt_mul, BitVec.ofInt_toInt, hpow, BitVec.mul_comm, BitVec.shiftLeft_eq_mul_twoPow]

/-- The displacement of a 16-bit load or store (R104). -/
theorem scaledDisp_eq_ofInt {n : Nat} (disp : BitVec n) : scaledDisp disp = BitVec.ofInt 64 (4 * disp.toInt) := by
  rw [scaledDisp, shiftLeft_eq_ofInt, BitVec.ofInt_mul, BitVec.ofInt_toInt, sext_eq_ofInt, BitVec.ofInt_mul]
  rfl

/-- The displacement of Bcc (R211). -/
theorem branchDisp_eq_ofInt (disp : BitVec 14) : branchDisp disp = BitVec.ofInt 64 (2 * disp.toInt) := by
  have hdouble : (disp ++ (0 : BitVec 1)).toInt = 2 * disp.toInt := by
    rw [show (0 : BitVec 1) = 0#1 from rfl, BitVec.toInt_append_zero, pow_one]
  rw [branchDisp, sext_eq_ofInt, hdouble]

/-- A 40-bit immediate at bits 63:24 with zeros below (R117). -/
theorem toNat_shiftedZeros (imm : BitVec 40) : (shiftedZeros imm).toNat = imm.toNat * 2 ^ 24 := by
  rw [shiftedZeros, BitVec.toNat_append, ← Nat.shiftLeft_add_eq_or_of_lt (BitVec.isLt _), Nat.shiftLeft_eq]
  simp

/-- A 40-bit immediate at bits 63:24 with ones below (R117, R185). -/
theorem toNat_shiftedOnes (imm : BitVec 40) : (shiftedOnes imm).toNat = imm.toNat * 2 ^ 24 + (2 ^ 24 - 1) := by
  rw [shiftedOnes, BitVec.toNat_append, ← Nat.shiftLeft_add_eq_or_of_lt (BitVec.isLt _), Nat.shiftLeft_eq]
  rfl

/-- Settles O48: each form's number. -/
theorem immediateForms : Obligations.ImmediateForms := fun disp4 disp5 disp12 disp14 disp27 imm40 =>
  ⟨scaledDisp_eq_ofInt disp4, scaledDisp_eq_ofInt disp5, sext_eq_ofInt disp12, sext_eq_ofInt disp14, sext_eq_ofInt disp27,
    branchDisp_eq_ofInt disp14, toNat_shiftedZeros imm40, toNat_shiftedOnes imm40⟩

/-! ### Sums and differences of words as numbers -/

theorem add_eq_ofInt (a b : Word) : a + b = BitVec.ofInt 64 (a.toInt + b.toInt) := by
  rw [BitVec.ofInt_add, BitVec.ofInt_toInt, BitVec.ofInt_toInt]

theorem add_sext_eq_ofInt {n : Nat} (a : Word) (imm : BitVec n) :
    a + sext imm = BitVec.ofInt 64 (a.toInt + imm.toInt) := by
  rw [BitVec.ofInt_add, BitVec.ofInt_toInt, sext_eq_ofInt]

theorem neg_eq_ofInt (a : Word) : 0 - a = BitVec.ofInt 64 (-a.toInt) := by
  rw [BitVec.ofInt_neg, BitVec.ofInt_toInt]
  exact BitVec.zero_sub a

theorem sub_eq_ofInt (a b : Word) : a - b = BitVec.ofInt 64 (a.toInt - b.toInt) := by
  rw [Int.sub_eq_add_neg, BitVec.ofInt_add, BitVec.ofInt_neg, BitVec.ofInt_toInt, BitVec.ofInt_toInt,
    BitVec.sub_eq_add_neg]

/-- A scaled operand and another word (R141 to R148). -/
theorem scaled_add_eq_ofInt (k : Nat) (a b : Word) :
    (a <<< k) + b = BitVec.ofInt 64 (2 ^ k * a.toInt + b.toInt) := by
  rw [BitVec.ofInt_add, ← shiftLeft_eq_ofInt, BitVec.ofInt_toInt]

/-- A scaled operand and an immediate (R141 to R148). -/
theorem scaled_add_sext_eq_ofInt (k : Nat) (a : Word) {n : Nat} (imm : BitVec n) :
    (a <<< k) + sext imm = BitVec.ofInt 64 (2 ^ k * a.toInt + imm.toInt) := by
  rw [BitVec.ofInt_add, ← shiftLeft_eq_ofInt, sext_eq_ofInt]

/-- Settles O29: scaling is a shift by 1 to 4 bits. -/
theorem scaledAdds : Obligations.ScaledAdds := fun _ _ _ _ _ =>
  ⟨writes_of_finishReg rfl (scaled_add_eq_ofInt 1 _ _), writes_of_finishReg rfl (scaled_add_sext_eq_ofInt 1 _ _),
    writes_of_finishReg rfl (scaled_add_eq_ofInt 2 _ _), writes_of_finishReg rfl (scaled_add_sext_eq_ofInt 2 _ _),
    writes_of_finishReg rfl (scaled_add_eq_ofInt 3 _ _), writes_of_finishReg rfl (scaled_add_sext_eq_ofInt 3 _ _),
    writes_of_finishReg rfl (scaled_add_eq_ofInt 4 _ _), writes_of_finishReg rfl (scaled_add_sext_eq_ofInt 4 _ _)⟩

/-- Settles O30: `func6` and `sel3` pick the rows of the `{RR}` group, and each ends by writing its sum or difference. -/
theorem addSubRegister : Obligations.AddSubRegister := by
  intro s p w rt ra rb
  refine ⟨fun hop hfn hsel => ?_, fun hop hfn hsel => ?_, writes_of_finishReg rfl ?_,
    writes_of_finishReg rfl (sub_eq_ofInt _ _)⟩
  · simp only [decodeWord_of_opcode42 p hop, decodeRR, hfn, hsel]
  · simp only [decodeWord_of_opcode42 p hop, decodeRR, hfn, hsel]
  · exact BitVec.eq_of_toNat_eq (by rw [BitVec.toNat_add, BitVec.toNat_ofNat])

/-- ADDIS adds the immediate as a number at bits 63:24 (R156). -/
theorem add_shiftedZeros_eq_ofInt (a : Word) (imm : BitVec 40) :
    a + shiftedZeros imm = BitVec.ofInt 64 (a.toInt + imm.toNat * 2 ^ 24) := by
  have himm : shiftedZeros imm = BitVec.ofInt 64 (imm.toNat * 2 ^ 24) := by
    rw [show (imm.toNat * 2 ^ 24 : Int) = ((imm.toNat * 2 ^ 24 : Nat) : Int) by simp, BitVec.ofInt_natCast,
      ← toNat_shiftedZeros, BitVec.ofNat_toNat, BitVec.setWidth_eq]
  rw [BitVec.ofInt_add, BitVec.ofInt_toInt, himm]

/-- ABS: the magnitude modulo 2^64; that of the least word is the least word (R149). -/
theorem abs_eq_ofNat (a : Word) : (if a.msb then 0 - a else a) = BitVec.ofNat 64 a.toInt.natAbs := by
  rw [BitVec.msb_eq_toInt, ← BitVec.ofInt_natCast]
  split
  · next h =>
    have hneg : a.toInt < 0 := by simpa using h
    rw [neg_eq_ofInt, Int.ofNat_natAbs_of_nonpos (Int.le_of_lt hneg)]
  · next h =>
    have hpos : 0 ≤ a.toInt := by simpa using h
    rw [Int.natAbs_of_nonneg hpos, BitVec.ofInt_toInt]

/-- Settles O31: each form ends by writing its sum, its immediate, the negated word or the magnitude. -/
theorem addForms : Obligations.AddForms := fun _ _ _ _ _ _ _ _ _ =>
  ⟨writes_of_finishReg rfl (add_eq_ofInt _ _), writes_of_finishReg rfl (add_sext_eq_ofInt _ _),
    writes_of_finishReg rfl (add_sext_eq_ofInt _ _), writes_of_finishReg rfl (add_sext_eq_ofInt _ _),
    writes_of_finishReg rfl (add_sext_eq_ofInt _ _), writes_of_finishReg rfl (add_sext_eq_ofInt _ _),
    writes_of_finishReg rfl (add_shiftedZeros_eq_ofInt _ _), writes_of_finishReg rfl (sext_eq_ofInt _),
    writes_of_finishReg rfl (neg_eq_ofInt _), writes_of_finishReg rfl (abs_eq_ofNat _)⟩

/-! ### Overflow (R166) -/

/-- The test of ADDO says that the signed sum does not fit. -/
theorem addOverflows_iff (a b : Word) :
    addOverflows a b = true ↔ ¬ (-2 ^ 63 ≤ a.toInt + b.toInt ∧ a.toInt + b.toInt < 2 ^ 63) := by
  have hlib : addOverflows a b = BitVec.saddOverflow a b := by rw [BitVec.saddOverflow_eq]; rfl
  rw [hlib, BitVec.saddOverflow, Bool.or_eq_true, decide_eq_true_eq, decide_eq_true_eq]
  omega

/-- The test of SUBO says that the signed difference does not fit. -/
theorem subOverflows_iff (a b : Word) :
    subOverflows a b = true ↔ ¬ (-2 ^ 63 ≤ a.toInt - b.toInt ∧ a.toInt - b.toInt < 2 ^ 63) := by
  have hlib : subOverflows a b = BitVec.ssubOverflow a b := by
    rw [BitVec.ssubOverflow_eq, subOverflows]
    cases a.msb <;> cases b.msb <;> simp
  rw [hlib, BitVec.ssubOverflow, Bool.or_eq_true, decide_eq_true_eq, decide_eq_true_eq]
  omega

theorem exec_addo (rt ra rb : Reg) (s : State) :
    exec (.addo rt ra rb) s =
      if addOverflows (s.reg ra) (s.reg rb) then s.raise .integerOverflow none
      else s.finishReg rt (s.reg ra + s.reg rb) 4 := rfl

theorem exec_subo (rt ra rb : Reg) (s : State) :
    exec (.subo rt ra rb) s =
      if subOverflows (s.reg ra) (s.reg rb) then s.raise .integerOverflow none
      else s.finishReg rt (s.reg ra - s.reg rb) 4 := rfl

theorem exec_div (rt ra rb : Reg) (s : State) :
    exec (.div rt ra rb) s =
      if s.reg rb = 0 then s.raise .divideByZero none
      else if s.reg ra = BitVec.intMin 64 ∧ s.reg rb = BitVec.allOnes 64 then s.raise .integerOverflow none
      else s.finishReg rt ((s.reg ra).sdiv (s.reg rb)) 4 := rfl

theorem exec_divu (rt ra rb : Reg) (s : State) :
    exec (.divu rt ra rb) s =
      s.finishReg rt (if s.reg rb = 0 then Config.divuByZero s.draws (s.reg ra) else s.reg ra / s.reg rb) 4 := rfl

/-- Settles O32: a result that fits passes the test. -/
theorem overflowCheckedSums : Obligations.OverflowCheckedSums := by
  intro s rt ra rb a b
  refine ⟨fun hlo hhi => writes_of_finishReg ?_ (add_eq_ofInt _ _),
    fun hlo hhi => writes_of_finishReg ?_ (sub_eq_ofInt _ _)⟩
  · rw [exec_addo, if_neg fun h => (addOverflows_iff _ _).1 h ⟨hlo, hhi⟩]
  · rw [exec_subo, if_neg fun h => (subOverflows_iff _ _).1 h ⟨hlo, hhi⟩]

/-- The one quotient that does not fit, as numbers (R158). -/
theorem div_overflows_iff (a b : Word) :
    (a = BitVec.intMin 64 ∧ b = BitVec.allOnes 64) ↔ (a.toInt = -2 ^ 63 ∧ b.toInt = -1) := by
  rw [← BitVec.toInt_inj, ← BitVec.toInt_inj (y := BitVec.allOnes 64)]
  rfl

/-- Settles O33: where neither stop of DIV holds the quotient is written, and DIVU writes in every case. -/
theorem divides : Obligations.Divides := by
  intro s rt ra rb
  refine ⟨fun h0 hfit => ?_, fun h0 => ?_, fun h0 => ⟨_, writes_of_finishReg rfl rfl⟩⟩
  · have hexec : exec (.div rt ra rb) s = s.finishReg rt ((s.reg ra).sdiv (s.reg rb)) 4 := by
      rw [exec_div, if_neg h0, if_neg fun h => hfit ((div_overflows_iff _ _).1 h)]
    exact writes_of_finishReg hexec (BitVec.eq_of_toInt_eq (by rw [BitVec.toInt_sdiv, BitVec.toInt_ofInt]))
  · have hexec : exec (.divu rt ra rb) s = s.finishReg rt (s.reg ra / s.reg rb) 4 := by rw [exec_divu, if_neg h0]
    refine writes_of_finishReg hexec ?_
    refine BitVec.eq_of_toNat_eq ?_
    rw [BitVec.toNat_udiv, BitVec.toNat_ofNat, Nat.mod_eq_of_lt]
    exact Nat.lt_of_le_of_lt (Nat.div_le_self _ _) (s.reg ra).isLt

/-- Settles O34: the stops of O32 and O33. -/
theorem arithmeticRaises : Obligations.ArithmeticRaises := by
  intro s rt ra rb a b
  refine ⟨fun h => raises_of_eq ?_, fun h => raises_of_eq ?_, fun ha hb => raises_of_eq ?_, fun hb => raises_of_eq ?_⟩
  · rw [exec_addo, if_pos ((addOverflows_iff _ _).2 h)]
  · rw [exec_subo, if_pos ((subOverflows_iff _ _).2 h)]
  · have hne : s.reg rb ≠ 0 := fun h => by simp [b, h] at hb
    rw [exec_div, if_neg hne, if_pos ((div_overflows_iff _ _).2 ⟨ha, hb⟩)]
  · have h0 : s.reg rb = 0 := BitVec.eq_of_toInt_eq hb
    rw [exec_div, if_pos h0]

/-! ### Shifts (R238 to R241) -/

/-- Settles O43: the amount is the low six bits of `Rb`, and shifting is multiplying or dividing by a power of two. -/
theorem shifts : Obligations.Shifts := by
  intro s rt ra rb amount
  refine ⟨writes_of_finishReg rfl ?_, writes_of_finishReg rfl ?_, writes_of_finishReg rfl ?_⟩
  · refine BitVec.eq_of_toNat_eq ?_
    rw [BitVec.toNat_shiftLeft, BitVec.toNat_ofNat, Nat.shiftLeft_eq]
    rfl
  · rw [BitVec.sshiftRight, Int.shiftRight_eq_div_pow]
    rfl
  · refine BitVec.eq_of_toNat_eq ?_
    rw [BitVec.toNat_ushiftRight, BitVec.toNat_ofNat, Nat.shiftRight_eq_div_pow, Nat.mod_eq_of_lt]
    · rfl
    · exact Nat.lt_of_le_of_lt (Nat.div_le_self _ _) (s.reg ra).isLt

end Sys2Proof.Machine
end

section
/-! The logical instructions and the bit fields, bit by bit (R181 to R198, R230 to R237). -/

namespace Sys2Proof.Machine

/-- What an instruction that ends by `finishReg` does, bit by bit. -/
theorem writesBits_of_finishReg {i : Instr} {s : State} {rt : Reg} {v : Word} {f : Nat → Bool} {len : Nat}
    (h : exec i s = s.finishReg rt v len) (hv : ∀ k < 64, v.getLsbD k = f k) : WritesBits i s rt f len :=
  ⟨v, hv, writes_of_finishReg h rfl⟩

/-! ### The bits of the operand forms -/

/-- Bit `k` of a sign-extended immediate (R97). -/
theorem getLsbD_sext {n : Nat} (imm : BitVec n) {k : Nat} (hk : k < 64) : (sext imm).getLsbD k = sextBit imm k := by
  rw [sext, BitVec.getLsbD_signExtend, sextBit, decide_eq_true hk, Bool.true_and]

/-- Bit `k` of an immediate at bits 63:24 with zeros below (R117). -/
theorem getLsbD_shiftedZeros (imm : BitVec 40) (k : Nat) :
    (shiftedZeros imm).getLsbD k = (decide (24 ≤ k) && imm.getLsbD (k - 24)) := by
  rw [shiftedZeros, BitVec.getLsbD_append]
  by_cases h : k < 24
  · simp [h, Nat.not_le.2 h]
  · simp [h, Nat.not_lt.1 h]

/-- Bit `k` of an immediate at bits 63:24 with ones below (R117, R185). -/
theorem getLsbD_shiftedOnes (imm : BitVec 40) (k : Nat) :
    (shiftedOnes imm).getLsbD k = (decide (k < 24) || imm.getLsbD (k - 24)) := by
  rw [shiftedOnes, BitVec.getLsbD_append, BitVec.getLsbD_allOnes]
  by_cases h : k < 24 <;> simp [h]

/-! ### The statements on registers and immediates -/

/-- Settles O35: the `{RR}` rows of the four `func6`, and the bits of each result. -/
theorem logicalRegister : Obligations.LogicalRegister := by
  intro s p w rt ra rb a b
  refine ⟨fun hop => ⟨fun hfn => ?_, fun hfn => ?_, fun hfn => ?_, fun hfn hsel => ?_⟩,
    writesBits_of_finishReg rfl fun k hk => ?_, writesBits_of_finishReg rfl fun k hk => ?_,
    writesBits_of_finishReg rfl fun k hk => ?_, writesBits_of_finishReg rfl fun k hk => ?_⟩
  · simp only [decodeWord_of_opcode42 p hop, decodeRR, hfn]
  · simp only [decodeWord_of_opcode42 p hop, decodeRR, hfn]
  · simp only [decodeWord_of_opcode42 p hop, decodeRR, hfn]
  · simp only [decodeWord_of_opcode42 p hop, decodeRR, hfn, hsel]
  · exact BitVec.getLsbD_and
  · rw [BitVec.getLsbD_not, BitVec.getLsbD_and, decide_eq_true hk, Bool.true_and]
  · rw [BitVec.getLsbD_not, BitVec.getLsbD_or, decide_eq_true hk, Bool.true_and]
  · exact BitVec.getLsbD_xor

/-- Settles O36: the bits of each result, and NOT's test for zero as a number. -/
theorem logicalOther : Obligations.LogicalOther := by
  intro s rt ra rb c x
  refine ⟨writesBits_of_finishReg rfl fun k hk => ?_, writesBits_of_finishReg rfl fun k hk => ?_,
    writesBits_of_finishReg rfl fun k hk => ?_, writesBits_of_finishReg rfl fun k hk => ?_,
    writesBits_of_finishReg rfl fun k hk => ?_, writesBits_of_finishReg rfl fun k hk => ?_, writes_of_finishReg rfl ?_⟩
  · exact BitVec.getLsbD_or
  · exact BitVec.getLsbD_and
  · exact BitVec.getLsbD_or
  · rw [BitVec.getLsbD_and, BitVec.getLsbD_not, decide_eq_true hk, Bool.true_and]
  · rw [BitVec.getLsbD_not, BitVec.getLsbD_xor, decide_eq_true hk, Bool.true_and]; exact Bool.not_eq_eq_eq_not.2 rfl
  · rw [BitVec.getLsbD_not, decide_eq_true hk, Bool.true_and]
  · have hzero : s.reg ra = 0 ↔ (s.reg ra).toNat = 0 := BitVec.toNat_inj.symm
    simp only [hzero]

/-- Settles O37: the bits of each immediate's form. -/
theorem logicalImmediate : Obligations.LogicalImmediate := by
  intro s rt ra imm14 imm30 imm40 a
  refine ⟨writesBits_of_finishReg rfl fun k hk => ?_, writesBits_of_finishReg rfl fun k hk => ?_,
    writesBits_of_finishReg rfl fun k hk => ?_, writesBits_of_finishReg rfl fun k hk => ?_,
    writesBits_of_finishReg rfl fun k hk => ?_, writesBits_of_finishReg rfl fun k hk => ?_,
    writesBits_of_finishReg rfl fun k hk => ?_, writesBits_of_finishReg rfl fun k hk => ?_,
    writesBits_of_finishReg rfl fun k hk => ?_⟩
  · rw [BitVec.getLsbD_and, getLsbD_sext _ hk]
  · rw [BitVec.getLsbD_and, getLsbD_sext _ hk]
  · rw [BitVec.getLsbD_and, getLsbD_shiftedOnes]
  · rw [BitVec.getLsbD_or, getLsbD_sext _ hk]
  · rw [BitVec.getLsbD_or, getLsbD_sext _ hk]
  · rw [BitVec.getLsbD_or, getLsbD_shiftedZeros]
  · rw [BitVec.getLsbD_xor, getLsbD_sext _ hk]
  · rw [BitVec.getLsbD_xor, getLsbD_sext _ hk]
  · rw [BitVec.getLsbD_xor, getLsbD_shiftedZeros]

/-! ### Constants in two halves (R198) -/

/-- The low 24 bits of a constant, as a 30-bit immediate with zeros above, sign-extended. -/
theorem getLsbD_sext_low (c : Word) {k : Nat} (hk : k < 64) :
    (sext ((c.setWidth 24).setWidth 30)).getLsbD k = (decide (k < 24) && c.getLsbD k) := by
  rw [getLsbD_sext _ hk, sextBit]
  by_cases h : k < 30
  · simp [h]
  · simp [h, BitVec.msb_eq_getLsbD_last, show ¬ k < 24 by omega]

/-- The low 24 bits of a constant, as a 30-bit immediate with ones above, sign-extended. -/
theorem getLsbD_sext_low_ones (c : Word) {k : Nat} (hk : k < 64) :
    (sext (0x3F000000#30 ||| (c.setWidth 24).setWidth 30)).getLsbD k = (decide (24 ≤ k) || c.getLsbD k) := by
  have hones : ∀ j < 30, (0x3F000000#30).getLsbD j = decide (24 ≤ j) := by decide
  rw [getLsbD_sext _ hk, sextBit]
  by_cases h : k < 30
  · rw [if_pos h, BitVec.getLsbD_or, hones k h, BitVec.getLsbD_setWidth, BitVec.getLsbD_setWidth]
    by_cases h24 : k < 24
    · simp [h, h24]
    · simp [Nat.not_lt.1 h24]
  · simp [h, BitVec.msb_eq_getLsbD_last, show 24 ≤ k by omega]

/-- The upper 40 bits of a constant. -/
theorem getLsbD_high (c : Word) {k : Nat} (h24 : 24 ≤ k) (hk : k < 64) :
    (c.extractLsb' 24 40).getLsbD (k - 24) = c.getLsbD k := by
  rw [BitVec.getLsbD_extractLsb', decide_eq_true (by omega), Bool.true_and]
  congr 1
  omega

/-- The two halves of a constant with zeros beside them. -/
theorem shiftedZeros_or_sext_low (c : Word) :
    shiftedZeros (c.extractLsb' 24 40) ||| sext ((c.setWidth 24).setWidth 30) = c := by
  refine BitVec.eq_of_getLsbD_eq fun k hk => ?_
  rw [BitVec.getLsbD_or, getLsbD_shiftedZeros, getLsbD_sext_low c hk]
  by_cases h : k < 24
  · simp [h, Nat.not_le.2 h]
  · simp [h, Nat.not_lt.1 h, getLsbD_high c (Nat.not_lt.1 h) hk]

theorem shiftedZeros_xor_sext_low (c : Word) :
    shiftedZeros (c.extractLsb' 24 40) ^^^ sext ((c.setWidth 24).setWidth 30) = c := by
  refine BitVec.eq_of_getLsbD_eq fun k hk => ?_
  rw [BitVec.getLsbD_xor, getLsbD_shiftedZeros, getLsbD_sext_low c hk]
  by_cases h : k < 24
  · simp [h, Nat.not_le.2 h]
  · simp [h, Nat.not_lt.1 h, getLsbD_high c (Nat.not_lt.1 h) hk]

/-- The two halves of a constant with ones beside them. -/
theorem shiftedOnes_and_sext_low (c : Word) :
    shiftedOnes (c.extractLsb' 24 40) &&& sext (0x3F000000#30 ||| (c.setWidth 24).setWidth 30) = c := by
  refine BitVec.eq_of_getLsbD_eq fun k hk => ?_
  rw [BitVec.getLsbD_and, getLsbD_shiftedOnes, getLsbD_sext_low_ones c hk]
  by_cases h : k < 24
  · simp [h, Nat.not_le.2 h]
  · simp [h, Nat.not_lt.1 h, getLsbD_high c (Nat.not_lt.1 h) hk]

/-- The target of an instruction that ends by `finishReg`, read by the next one. -/
theorem State.reg_finishReg {s : State} {rt : Reg} (v : Word) (len : Nat) (h : rt ≠ 0) :
    ((s.setReg rt v).advance len).reg rt = v := by
  rw [State.advance_reg, State.reg_setReg_same, if_neg h]

/-- Settles O38: the second instruction of a pair reads what the first wrote, and the halves make up the constant. -/
theorem fullWidthConstants : Obligations.FullWidthConstants := by
  intro s rt ra c hrt high low
  refine ⟨⟨_, _, rfl, rfl, ?_⟩, ⟨_, _, rfl, rfl, ?_⟩, ⟨_, _, rfl, rfl, ?_⟩⟩
  · rw [State.reg_finishReg _ _ hrt, State.reg_finishReg _ _ hrt, State.reg_zero, show (0 : Word) = 0#64 from rfl,
      BitVec.zero_or]
    exact shiftedZeros_or_sext_low c
  · rw [State.reg_finishReg _ _ hrt, State.reg_finishReg _ _ hrt, BitVec.and_assoc]
    exact congrArg _ (shiftedOnes_and_sext_low c)
  · rw [State.reg_finishReg _ _ hrt, State.reg_finishReg _ _ hrt, BitVec.xor_assoc]
    exact congrArg _ (shiftedZeros_xor_sext_low c)

/-! ### Bit fields (R230 to R237) -/

section
variable {mb me : BitNo}

/-- A bit-field instruction ends by writing its result where the field exists, and else a draw (R230). -/
theorem State.finishField_of_le (s : State) (op : BitfieldOp) (rt : Reg) (source v : Word) (h : mb ≤ me) :
    s.finishField op rt source mb me v = s.finishReg rt v 6 := by
  rw [State.finishField, if_pos h]

/-- The mask has its ones at the bits of the field. -/
theorem getLsbD_bitMask (h : mb ≤ me) {k : Nat} (hk : k < 64) :
    (bitMask mb me).getLsbD k = (decide (mb.val ≤ k) && decide (k ≤ me.val)) := by
  have hle : mb.val ≤ me.val := h
  rw [bitMask, BitVec.getLsbD_ofNat, decide_eq_true hk, Bool.true_and, Nat.testBit_mul_two_pow,
    Nat.testBit_two_pow_sub_one, fieldWidth]
  by_cases hmb : mb.val ≤ k
  · simp only [hmb, decide_true, Bool.true_and, decide_eq_decide]; omega
  · simp [hmb]

/-- Bit `k` of an inserted field (R235, R236). -/
theorem getLsbD_insertField (old v : Word) (h : mb ≤ me) {k : Nat} (hk : k < 64) :
    (insertField old v mb me).getLsbD k =
      if decide (mb.val ≤ k) && decide (k ≤ me.val) then v.getLsbD (k - mb.val) else old.getLsbD k := by
  simp only [insertField, BitVec.getLsbD_or, BitVec.getLsbD_and, BitVec.getLsbD_not, getLsbD_bitMask h hk,
    BitVec.getLsbD_shiftLeft, decide_eq_true hk, Bool.true_and]
  by_cases hmb : mb.val ≤ k <;> by_cases hme : k ≤ me.val <;> simp [hmb, hme]

/-- Bit `k` of an extracted field (R233, R234). -/
theorem getLsbD_extractField (v : Word) (k : Nat) :
    (extractField v mb me).getLsbD k = (decide (k < fieldWidth mb me) && v.getLsbD (mb.val + k)) := by
  rw [extractField, BitVec.getLsbD_setWidth, BitVec.getLsbD_ushiftRight]

/-- The field sign-extended: its top bit stands above it (R233). -/
theorem getLsbD_signExtend_extractField (v : Word) (h : mb ≤ me) {k : Nat} (hk : k < 64) :
    ((extractField v mb me).signExtend 64).getLsbD k = v.getLsbD (min (mb.val + k) me.val) := by
  have hle : mb.val ≤ me.val := h
  rw [BitVec.getLsbD_signExtend, decide_eq_true hk, Bool.true_and, BitVec.msb_eq_getLsbD_last, getLsbD_extractField,
    getLsbD_extractField]
  by_cases hin : k < fieldWidth mb me
  · have hmin : min (mb.val + k) me.val = mb.val + k := by rw [fieldWidth] at hin; omega
    simp [hin, hmin]
  · have hlast : mb.val + (fieldWidth mb me - 1) = me.val := by rw [fieldWidth]; omega
    have hmin : min (mb.val + k) me.val = me.val := by rw [fieldWidth] at hin; omega
    have hwidth : fieldWidth mb me - 1 < fieldWidth mb me := by rw [fieldWidth]; omega
    simp [hin, hmin, hlast, hwidth]

/-- The field zero-extended (R234). -/
theorem getLsbD_setWidth_extractField (v : Word) (h : mb ≤ me) {k : Nat} (hk : k < 64) :
    ((extractField v mb me).setWidth 64).getLsbD k = (decide (mb.val + k ≤ me.val) && v.getLsbD (mb.val + k)) := by
  have hle : mb.val ≤ me.val := h
  have hin : (k < fieldWidth mb me) = (mb.val + k ≤ me.val) := by rw [fieldWidth, eq_iff_iff]; omega
  rw [BitVec.getLsbD_setWidth, getLsbD_extractField, decide_eq_true hk, Bool.true_and]
  simp only [hin]

end

/-- Settles O42: the field's mask, insertion and extraction bit by bit; a draw is a value like any other. -/
theorem bitFields : Obligations.BitFields := by
  intro s rt ra imm mb me a old inside
  refine ⟨fun h => ?_, fun h i hi => ?_⟩
  · refine ⟨writesBits_of_finishReg (s.finishField_of_le .bfchg _ _ _ h) fun k hk => ?_,
      writesBits_of_finishReg (s.finishField_of_le .bfclr _ _ _ h) fun k hk => ?_,
      writesBits_of_finishReg (s.finishField_of_le .bfset _ _ _ h) fun k hk => ?_,
      writesBits_of_finishReg (s.finishField_of_le .bfext _ _ _ h) fun k hk => ?_,
      writesBits_of_finishReg (s.finishField_of_le .bfextu _ _ _ h) fun k hk => ?_,
      writesBits_of_finishReg (s.finishField_of_le .bfins _ _ _ h) fun k hk => ?_,
      writesBits_of_finishReg (s.finishField_of_le .bfinsi _ _ _ h) fun k hk => ?_⟩
    · rw [BitVec.getLsbD_xor, getLsbD_bitMask h hk]
    · rw [BitVec.getLsbD_and, BitVec.getLsbD_not, getLsbD_bitMask h hk, decide_eq_true hk, Bool.true_and]
    · rw [BitVec.getLsbD_or, getLsbD_bitMask h hk]
    · exact getLsbD_signExtend_extractField _ h hk
    · exact getLsbD_setWidth_extractField _ h hk
    · exact getLsbD_insertField _ _ h hk
    · have hlow : ∀ j < 64, (imm.setWidth 64).getLsbD j = imm.getLsbD j := fun j hj => by
        rw [BitVec.getLsbD_setWidth, decide_eq_true hj, Bool.true_and]
      rw [getLsbD_insertField _ _ h hk, hlow _ (by omega)]
  · simp only [List.mem_cons, List.not_mem_nil, or_false] at hi
    rcases hi with rfl | rfl | rfl | rfl | rfl | rfl | rfl <;> exact ⟨_, writes_of_finishReg rfl rfl⟩

end Sys2Proof.Machine
end

section
/-! Branches, jumps, the immediate compares, and what only advances or is refused (R72, R128, R210 to R219, R250 to R258,
R324, R325). -/

namespace Sys2Proof.Machine

/-! ### Completion -/

/-- What an instruction that ends by `finishBranch` does, by the condition it tests. -/
theorem goesTo_of_finishBranch {i : Instr} {s : State} {taken : Bool} {disp : Word} {len : Nat} {holds : Prop}
    [Decidable holds] (h : exec i s = s.finishBranch taken disp len) (hc : taken = true ↔ holds) :
    GoesTo i s (if holds then s.npc len + disp else s.npc len) := by
  obtain ⟨t, ht, hpc, hrest⟩ := s.finishBranch_spec taken disp len
  refine ⟨t, h.trans ht, hpc.trans ?_, hrest⟩
  simp only [hc, State.npc]

/-- What an instruction that ends by a jump does. -/
theorem goesTo_of_jump {i : Instr} {s : State} {target : Word} (h : exec i s = .next (s.jump target)) :
    GoesTo i s target :=
  ⟨_, h, s.jump_spec target⟩

/-- What an instruction that ends by `finishNop` does. -/
theorem advances_of_finishNop {i : Instr} {s : State} {len : Nat} (h : exec i s = s.finishNop len) : Advances i s len :=
  goesTo_of_jump h

/-- What an instruction that ends by `finishLink` does. -/
theorem links_of_finishLink {i : Instr} {s : State} {rt : Reg} {target target' : Word} {len : Nat}
    (h : exec i s = s.finishLink rt target len) (ht : target = target') : Links i s rt target' len := by
  subst ht
  obtain ⟨t, ht, hrest⟩ := s.finishLink_spec rt target len
  exact ⟨t, h.trans ht, hrest⟩

/-! ### Branches and jumps -/

/-- A displacement from the next instruction as a number. -/
theorem npc_add_ofInt (s : State) (len : Nat) (z : Int) :
    s.npc len + BitVec.ofInt 64 z = BitVec.ofInt 64 (s.pc.toNat + len + z) := by
  rw [BitVec.ofInt_add, BitVec.ofInt_add, BitVec.ofInt_natCast, BitVec.ofInt_natCast, BitVec.ofNat_toNat,
    BitVec.setWidth_eq, State.npc]

/-- Settles O39: each condition is what its branch tests, and all go to one target. -/
theorem branchConditions : Obligations.BranchConditions := by
  intro s disp
  refine ⟨⟨s.npc 4 + branchDisp disp, fun p => ?_⟩, fun p w cond hop hcond hmem => ?_⟩
  · refine ⟨goesTo_of_finishBranch (taken := false) rfl (by simp), goesTo_of_finishBranch (taken := true) rfl (by simp),
      goesTo_of_finishBranch rfl (by simp), goesTo_of_finishBranch rfl (by simp),
      goesTo_of_finishBranch rfl (by simp [CmpReg.le]), goesTo_of_finishBranch rfl (by simp [CmpReg.le]),
      goesTo_of_finishBranch rfl (by simp), goesTo_of_finishBranch rfl (by simp),
      goesTo_of_finishBranch rfl (by simp [CmpReg.leu]), goesTo_of_finishBranch rfl (by simp [CmpReg.leu]),
      goesTo_of_finishBranch rfl (by simp), goesTo_of_finishBranch rfl (by simp), goesTo_of_finishBranch rfl (by simp)⟩
  · rw [decodeWord_of_opcode32 p (by rw [hop]; decide) (by rw [hop]; decide)]
    simp only [List.mem_cons, List.not_mem_nil, or_false] at hmem
    rcases hmem with rfl | rfl | rfl <;> simp only [decode32, hop, decodeBcc, hcond]

/-- Settles O40: the displacements as signed numbers from the next instruction. -/
theorem branchTargets : Obligations.BranchTargets := by
  intro s p disp short
  have hfar : s.npc 4 + branchDisp disp = BitVec.ofInt 64 (s.pc.toNat + 4 + 2 * disp.toInt) := by
    rw [branchDisp_eq_ofInt]
    exact npc_add_ofInt s 4 _
  have hnear : s.npc 2 + sext short = BitVec.ofInt 64 (s.pc.toNat + 2 + short.toInt) := npc_add_ofInt s 2 _
  rw [← hfar, ← hnear]
  refine ⟨goesTo_of_jump rfl, goesTo_of_finishBranch rfl Iff.rfl, ?_⟩
  rw [← ite_not]
  exact goesTo_of_finishBranch rfl (by simp)

/-- Settles O41: the link is the next address, the target is computed before it is written. -/
theorem jumps : Obligations.Jumps := by
  intro s rt ra off19 off35 off10
  exact ⟨links_of_finishLink rfl (npc_add_ofInt s 4 _), links_of_finishLink rfl (npc_add_ofInt s 6 _),
    links_of_finishLink rfl (npc_add_ofInt s 2 _), links_of_finishLink rfl rfl, goesTo_of_jump rfl⟩

/-! ### The immediate compares -/

/-- The comparison with a sign-extended immediate, by the immediate as a signed number (R255). -/
theorem compareFlags_sext {n : Nat} (hn : n ≤ 64) (a : Word) (imm : BitVec n) :
    compareFlags a (sext imm) =
      { eq := decide (a.toInt = imm.toInt), lt := decide (a.toInt < imm.toInt),
        ltu := decide ((a.toNat : Int) < imm.toInt % 2 ^ 64) } := by
  have hint : (sext imm).toInt = imm.toInt := BitVec.toInt_signExtend_of_le hn
  have hnat : ((sext imm).toNat : Int) = imm.toInt % 2 ^ 64 := by
    rw [sext_eq_ofInt, BitVec.toNat_ofInt, Int.toNat_of_nonneg (Int.emod_nonneg _ (by decide))]
    rfl
  have heq : a.toNat = (sext imm).toNat ↔ a.toInt = imm.toInt := by rw [BitVec.toNat_inj, ← BitVec.toInt_inj, hint]
  simp only [compareFlags_eq_decide, heq, hint, ← hnat, Int.ofNat_lt]

/-- The upper part of a word is its bits 63:24 with zeros below (R257). -/
theorem upperPart_eq_shiftedZeros (a : Word) : upperPart a = shiftedZeros (a.extractLsb' 24 40) := by
  have hmask : ∀ k < 64, (0xFFFFFFFFFF000000#64).getLsbD k = decide (24 ≤ k) := by decide
  refine BitVec.eq_of_getLsbD_eq fun k hk => ?_
  rw [upperPart, BitVec.getLsbD_and, hmask k hk, getLsbD_shiftedZeros, Bool.and_comm]
  by_cases h : 24 ≤ k
  · rw [getLsbD_high a h hk]
  · simp [h]

/-- The comparison of two values at bits 63:24 is that of the values. -/
theorem compareFlags_shiftedZeros (x y : BitVec 40) :
    compareFlags (shiftedZeros x) (shiftedZeros y) =
      { eq := decide (x.toNat = y.toNat), lt := decide (x.toInt < y.toInt), ltu := decide (x.toNat < y.toNat) } := by
  have hint : ∀ z : BitVec 40, (shiftedZeros z).toInt = 2 ^ 24 * z.toInt := fun z => BitVec.toInt_append_zero
  rw [compareFlags_eq_decide, toNat_shiftedZeros, toNat_shiftedZeros, hint, hint]
  congr 1 <;> rw [decide_eq_decide] <;> omega

/-- The upper 40 bits of a word as an unsigned number. -/
theorem toNat_high (a : Word) : (a.extractLsb' 24 40).toNat = a.toNat / 2 ^ 24 := by
  have := a.isLt
  rw [BitVec.extractLsb'_toNat, Nat.shiftRight_eq_div_pow]
  omega

/-- The upper 40 bits of a word as a signed number. -/
theorem toInt_high (a : Word) : (a.extractLsb' 24 40).toInt = a.toInt / 2 ^ 24 := by
  rw [BitVec.toInt_eq_toNat_cond, BitVec.toInt_eq_toNat_cond, toNat_high]
  have := a.isLt
  split <;> split <;> omega

/-- The flags of CMPIU (R257). -/
theorem compareFlags_upperPart (a : Word) (imm : BitVec 40) :
    compareFlags (upperPart a) (shiftedZeros imm) =
      { eq := decide (a.toNat / 2 ^ 24 = imm.toNat), lt := decide (a.toInt / 2 ^ 24 < imm.toInt),
        ltu := decide (a.toNat / 2 ^ 24 < imm.toNat) } := by
  rw [upperPart_eq_shiftedZeros, compareFlags_shiftedZeros, toNat_high, toInt_high]

/-- The flags of CMPIL (R256). -/
theorem lowerFlags_eq_decide (a : Word) (imm : BitVec 24) :
    lowerFlags a imm =
      { eq := decide (a.toNat % 2 ^ 24 = imm.toNat), lt := decide (a.toNat % 2 ^ 24 < imm.toNat),
        ltu := decide (a.toNat % 2 ^ 24 < imm.toNat) } := by
  have heq : (a.setWidth 24 == imm) = decide (a.toNat % 2 ^ 24 = imm.toNat) := by
    rw [beq_eq_decide, decide_eq_decide, ← BitVec.toNat_inj, BitVec.toNat_setWidth]
  simp only [lowerFlags, heq, BitVec.ult_eq_decide, BitVec.toNat_setWidth]

/-- The flags of BITI (R251). -/
theorem testFlags_eq_decide (r : Word) :
    testFlags r =
      { eq := decide (r.toNat = 0), lt := decide (r.toInt < 0), ltu := decide (r.toNat % 2 = 1) } := by
  have heq : (r == 0) = decide (r.toNat = 0) := by
    rw [beq_eq_decide, decide_eq_decide, ← BitVec.toNat_inj]
    rfl
  rw [testFlags, heq, BitVec.msb_eq_toInt, BitVec.getLsbD, Nat.testBit_zero]

theorem exec_cmpiu (pt : PReg) (ra : Reg) (imm : BitVec 40) (s : State) :
    exec (.cmpiu pt ra imm) s = s.finishPred pt (compareFlags (upperPart (s.reg ra)) (shiftedZeros imm)) 8 := rfl

/-- Settles O45: each compare ends by writing its flags, CMPIL only where `eq` is set. -/
theorem compareImmediate : Obligations.CompareImmediate := by
  intro s pt ra imm14 imm24 imm30 imm40 a against masked
  refine ⟨?_, ?_, ?_, fun heq => ?_, fun heq => advances_of_finishNop ?_, ?_⟩
  · exact writesFlags_of_eq (congrArg (s.finishPred pt · 4) (compareFlags_sext (by decide) _ _))
  · exact writesFlags_of_eq (congrArg (s.finishPred pt · 6) (compareFlags_sext (by decide) _ _))
  · exact writesFlags_of_eq (congrArg (s.finishPred pt · 8) (compareFlags_upperPart _ _))
  · refine writesFlags_of_eq ?_
    rw [exec_cmpil, if_pos heq, lowerFlags_eq_decide]
  · rw [exec_cmpil, heq]
    rfl
  · exact writesFlags_of_eq (congrArg (s.finishPred pt · 4) (testFlags_eq_decide _))

/-- Words with equal upper parts are compared by their lower parts, which are not signed. -/
theorem compareFlags_of_high_eq {a c : Word} (h : a.toNat / 2 ^ 24 = c.toNat / 2 ^ 24) :
    compareFlags a c = lowerFlags a (c.setWidth 24) := by
  have hsigned : a.toInt < c.toInt ↔ a.toNat % 2 ^ 24 < c.toNat % 2 ^ 24 := by
    rw [BitVec.toInt_eq_toNat_cond, BitVec.toInt_eq_toNat_cond]
    split <;> split <;> omega
  rw [compareFlags_eq_decide, lowerFlags_eq_decide, BitVec.toNat_setWidth]
  congr 1 <;> rw [decide_eq_decide] <;> omega

/-- Words with different upper parts are compared by those. -/
theorem compareFlags_of_high_ne {a c : Word} (h : a.toNat / 2 ^ 24 ≠ c.toNat / 2 ^ 24) :
    compareFlags a c = compareFlags (upperPart a) (shiftedZeros (c.extractLsb' 24 40)) := by
  have hsigned : a.toInt < c.toInt ↔ a.toInt / 2 ^ 24 < c.toInt / 2 ^ 24 := by
    rw [BitVec.toInt_eq_toNat_cond, BitVec.toInt_eq_toNat_cond]
    split <;> split <;> omega
  rw [compareFlags_eq_decide, compareFlags_upperPart, toNat_high, toInt_high]
  congr 1 <;> rw [decide_eq_decide] <;> omega

/-- Settles O47: CMPIU leaves `eq` set exactly where the upper parts are equal, and only then CMPIL compares the lower. -/
theorem compare64 : Obligations.Compare64 := by
  intro s pt ra c
  have hfull : CmpReg.mk (decide (s.reg ra = c)) (decide ((s.reg ra).toInt < c.toInt))
      (decide ((s.reg ra).toNat < c.toNat)) = compareFlags (s.reg ra) c := by
    simp only [compareFlags_eq_decide, BitVec.toNat_inj]
  have hupper : (compareFlags (upperPart (s.reg ra)) (shiftedZeros (c.extractLsb' 24 40))).eq =
      decide ((s.reg ra).toNat / 2 ^ 24 = c.toNat / 2 ^ 24) := by
    rw [compareFlags_upperPart, toNat_high]
  rw [hfull]
  by_cases h : (s.reg ra).toNat / 2 ^ 24 = c.toNat / 2 ^ 24
  · refine ⟨_, _, exec_cmpiu _ _ _ _, (exec_cmpil _ _ _ _).trans (if_pos (by simpa [hupper] using h)), ?_⟩
    simp [compareFlags_of_high_eq h]
  · refine ⟨_, _, exec_cmpiu _ _ _ _, (exec_cmpil _ _ _ _).trans (if_neg (by simpa [hupper] using h)), ?_⟩
    simp [compareFlags_of_high_ne h]

/-! ### What only advances, and what is refused -/

/-- Settles O55: the parcels are decoded, and each of the instructions ends by advancing, the zero parcel by a write to r0. -/
theorem barriersAndNops : Obligations.BarriersAndNops := by
  intro s p
  refine ⟨?_, ?_, ?_, ?_, ?_, ?_, fun i hi => ?_⟩
  case refine_6 => rw [decodeWord_of_opcode16 p (by decide)]; rfl
  case refine_7 =>
    simp only [List.mem_cons, List.not_mem_nil, or_false] at hi
    rcases hi with rfl | rfl | rfl | rfl | rfl | rfl <;> exact advances_of_finishNop rfl
  all_goals rw [decodeWord_of_opcode33 p (by decide)]; rfl

/-- Settles O60: each row's meaning is the refusal by its name. -/
theorem mapOnlyRefused : Obligations.MapOnlyRefused := by
  intro s i name h
  refine (List.forall_iff_forall_mem (p := fun row => exec row.1 s = .refused (.unsupported row.2))).1 ?_ (i, name) h
  and_intros <;> rfl

end Sys2Proof.Machine
end

section
/-! Loads, stores and compare-and-swap (R62 to R71, R270 to R300). -/

namespace Sys2Proof.Machine

/-! ### Loads -/

/-- What the load of `n` bytes does to a number that fits them. -/
def LoadedAs (n : Nat) (signed : Bool) (ext : Word → Word) : Prop :=
  ∀ v : Nat, ext (BitVec.ofNat 64 v) =
    if signed then BitVec.ofInt 64 (BitVec.ofNat (8 * n) v).toInt else BitVec.ofNat 64 v

theorem loadedAs_sextByte : LoadedAs 1 true sextByte := fun v => by
  rw [sextByte, BitVec.setWidth_ofNat_of_le (by decide)]
  rfl

theorem loadedAs_sextHalf : LoadedAs 2 true sextHalf := fun v => by
  rw [sextHalf, BitVec.setWidth_ofNat_of_le (by decide)]
  rfl

theorem loadedAs_zextLoaded (n : Nat) : LoadedAs n false zextLoaded := fun _ => rfl

/-- What an instruction that ends by `finishLoad` does where the access completes. -/
theorem loads_of_finishLoad {i : Instr} {s : State} {rt : Reg} {ea : Word} {n : Nat} {ext : Word → Word} {len : Nat}
    {signed : Bool} (h : exec i s = s.finishLoad rt ea n ext len) (hext : LoadedAs n signed ext) :
    Loads i s rt ea n signed len := by
  intro v hv ha hf
  refine writes_of_finishReg ?_ (hext v)
  rw [h, State.finishLoad, State.memRead_of_holds hv ha hf, Access.run_value]

/-- LW to another register than r0 is a load. -/
theorem State.finishLoadWord_of_ne (s : State) {rt : Reg} (ea : Word) (len : Nat) (h : rt ≠ 0) :
    s.finishLoadWord rt ea len = s.finishLoad rt ea 8 zextLoaded len := if_neg h

/-- What an instruction that ends by `finishLoadWord` does: with target r0 nothing is read, and nothing would be written. -/
theorem loads_of_finishLoadWord {i : Instr} {s : State} {rt : Reg} {ea : Word} {len : Nat}
    (h : exec i s = s.finishLoadWord rt ea len) : Loads i s rt ea 8 false len := by
  by_cases h0 : rt = 0
  · subst h0
    exact fun v _ _ _ => writes_of_finishReg h rfl
  · exact loads_of_finishLoad (h.trans (s.finishLoadWord_of_ne ea len h0)) (loadedAs_zextLoaded 8)

/-- Settles O49: the width, the extension and the address of each form. -/
theorem loadsComplete : Obligations.LoadsComplete := by
  intro s rt ra rb rt3 ra3 disp4 disp5 disp14 disp27 near far indexed
  exact ⟨loads_of_finishLoad rfl loadedAs_sextByte, loads_of_finishLoad rfl loadedAs_sextByte,
    loads_of_finishLoad rfl (loadedAs_zextLoaded 1), loads_of_finishLoad rfl (loadedAs_zextLoaded 1),
    loads_of_finishLoad rfl loadedAs_sextHalf, loads_of_finishLoad rfl loadedAs_sextHalf,
    loads_of_finishLoad rfl (loadedAs_zextLoaded 2), loads_of_finishLoad rfl (loadedAs_zextLoaded 2),
    loads_of_finishLoad rfl loadedAs_sextByte, loads_of_finishLoad rfl (loadedAs_zextLoaded 1),
    loads_of_finishLoad rfl loadedAs_sextHalf, loads_of_finishLoad rfl (loadedAs_zextLoaded 2),
    loads_of_finishLoadWord rfl, loads_of_finishLoadWord rfl, loads_of_finishLoadWord rfl, loads_of_finishLoadWord rfl,
    loads_of_finishLoadWord rfl, advances_of_finishNop rfl, advances_of_finishNop rfl, advances_of_finishNop rfl,
    advances_of_finishNop rfl⟩

/-! ### Stores -/

/-- The state after a word is stored. -/
def State.storeWord (s : State) (ea v : Word) : State := { s with mem := s.mem.store ea 8 v.toNat }

/-- A stored word stands at its address, and no other byte changes. -/
theorem State.storeWord_memory (s : State) (ea v : Word) :
    (s.storeWord ea v).mem.Holds ea 8 v.toNat ∧ SameMemoryBut ea 8 s (s.storeWord ea v) :=
  ⟨Memory.holds_store s.mem ea (by decide) v.isLt, fun a ha => Memory.read_store_outside 8 s.mem ea v.toNat a ha⟩

/-- What an instruction that ends by `finishStoreWord` does where the access completes. -/
theorem stores_of_finishStoreWord {i : Instr} {s : State} {rs : Reg} {ea : Word} {len : Nat}
    (h : exec i s = s.finishStoreWord rs ea len) : Stores i s ea (s.reg rs) len := by
  intro ha hf
  obtain ⟨hholds, hbut⟩ := s.storeWord_memory ea (s.reg rs)
  refine ⟨(s.storeWord ea (s.reg rs)).advance len, ?_, hholds, hbut, rfl, fun _ _ => rfl, fun _ _ => rfl, ?_⟩
  · rw [h, State.finishStoreWord, State.memWrite_allowed _ ha hf]
    rfl
  · constructor <;> rfl

/-- Settles O50: the address of each form. -/
theorem storesComplete : Obligations.StoresComplete := fun _ _ _ _ _ _ _ _ _ =>
  ⟨stores_of_finishStoreWord rfl, stores_of_finishStoreWord rfl, stores_of_finishStoreWord rfl,
    stores_of_finishStoreWord rfl, stores_of_finishStoreWord rfl⟩

/-- Settles O52: after the store the word stands where the load reads it, and the environment answers as before. -/
theorem storeThenLoad : Obligations.StoreThenLoad := by
  intro s rt rs ra disp ea hrt ha hstore hload
  obtain ⟨t, ht, hholds, -, -, hregs, -, hsys⟩ :=
    stores_of_finishStoreWord (i := .sw rs ra disp) (s := s) (ea := ea) (len := 4) rfl ha hstore
  have hea : t.reg ra + sext disp = ea := by rw [hregs ra (by simp)]
  have hfault : t.memFault ea 8 .load = none := by
    rw [← hload]
    simp only [State.memFault, State.input, hsys.inputs]
  obtain ⟨u, hu, ⟨hrt', -⟩, -⟩ :=
    loads_of_finishLoadWord (i := .lw rt ra disp) (s := t) (ea := ea) (len := 4) (by rw [← hea]; rfl) _ hholds ha hfault
  refine ⟨t, u, ht, hu, ?_⟩
  rw [hrt', if_neg hrt]
  simp

/-! ### Where accesses raise -/

/-- An instruction whose access comes first raises where the access does. -/
theorem accessRaises_of_run {i : Instr} {s : State} {α : Type} {x : Access α} {k : α → Result} {ea : Word} {n : Nat}
    {kind : AccessKind} (h : exec i s = x.run s k)
    (hmis : ea.toNat % n ≠ 0 → x = .raised .misalignedData (some ea))
    (hfault : ∀ f, ea.toNat % n = 0 → s.memFault ea n kind = some f → x = .raised f.kind (some ea)) :
    AccessRaises i s ea n kind :=
  ⟨fun ha => raises_of_eq (by rw [h, hmis ha, Access.run_raised]),
    fun f ha hf => raises_of_eq (by rw [h, hfault f ha hf, Access.run_raised])⟩

theorem accessRaises_of_finishLoad {i : Instr} {s : State} {rt : Reg} {ea : Word} {n : Nat} {ext : Word → Word} {len : Nat}
    (h : exec i s = s.finishLoad rt ea n ext len) : AccessRaises i s ea n .load :=
  accessRaises_of_run h State.memRead_misaligned fun _ => State.memRead_faulted

theorem accessRaises_of_finishLoadWord {i : Instr} {s : State} {rt : Reg} {ea : Word} {len : Nat} (hrt : rt ≠ 0)
    (h : exec i s = s.finishLoadWord rt ea len) : AccessRaises i s ea 8 .load :=
  accessRaises_of_finishLoad (h.trans (s.finishLoadWord_of_ne ea len hrt))

theorem accessRaises_of_finishStoreWord {i : Instr} {s : State} {rs : Reg} {ea : Word} {len : Nat}
    (h : exec i s = s.finishStoreWord rs ea len) : AccessRaises i s ea 8 .store :=
  accessRaises_of_run h (State.memWrite_misaligned _) fun _ => State.memWrite_faulted _

/-- A byte is never misaligned. -/
theorem raises_of_finishLoad_byte {i : Instr} {s : State} {rt : Reg} {ea : Word} {ext : Word → Word} {len : Nat}
    (h : exec i s = s.finishLoad rt ea 1 ext len) {f : BusFault} (hf : s.memFault ea 1 .load = some f) :
    Raises i s f.kind (some ea) :=
  (accessRaises_of_finishLoad h).2 f (Nat.mod_one _) hf

/-- The codes of three bits name r8 to r15 (R23). -/
theorem reg3_ne_zero (c : Reg3) : reg3 c ≠ 0 :=
  Fin.ne_of_val_ne (show 8 + c.val ≠ 0 by omega)

/-- Settles O51: each form's first access is its only one; the 16-bit load with base never targets r0. -/
theorem accessesRaise : Obligations.AccessesRaise := by
  intro s rt ra rb rt3 ra3 disp4 disp5 disp14 disp27 near far indexed short
  have hreg3 : reg3 rt3 ≠ 0 := reg3_ne_zero rt3
  exact ⟨fun f hf => ⟨raises_of_finishLoad_byte rfl hf, raises_of_finishLoad_byte rfl hf⟩,
    fun f hf => ⟨raises_of_finishLoad_byte rfl hf, raises_of_finishLoad_byte rfl hf⟩,
    fun f hf => ⟨raises_of_finishLoad_byte rfl hf, raises_of_finishLoad_byte rfl hf⟩,
    accessRaises_of_finishLoad rfl, accessRaises_of_finishLoad rfl, accessRaises_of_finishLoad rfl,
    accessRaises_of_finishLoad rfl, accessRaises_of_finishLoad rfl, accessRaises_of_finishLoad rfl,
    fun hrt => ⟨accessRaises_of_finishLoadWord hrt rfl, accessRaises_of_finishLoadWord hrt rfl,
      accessRaises_of_finishLoadWord hrt rfl, accessRaises_of_finishLoadWord hrt rfl⟩,
    accessRaises_of_finishLoadWord hreg3 rfl, accessRaises_of_finishStoreWord rfl, accessRaises_of_finishStoreWord rfl,
    accessRaises_of_finishStoreWord rfl, accessRaises_of_finishStoreWord rfl, accessRaises_of_finishStoreWord rfl⟩

/-! ### Compare and swap (R300) -/

section
variable {s : State} {rt ra rb rc : Reg} {disp : BitVec 12}

/-- With r14 as target CAS raises before any access (log 20). -/
theorem exec_cas_sp : exec (.cas 14 ra rb rc disp) s = s.raise .illegalInstruction none := rfl

/-- With another target CAS is a load followed by a comparison. -/
theorem exec_cas (hrt : rt ≠ 14) :
    exec (.cas rt ra rb rc disp) s =
      (s.memRead (s.reg ra + sext disp) 8).run s fun old =>
        if old = s.reg rb then
          (s.memWrite (s.reg ra + sext disp) 8 (s.reg rc)).run s fun t => t.finishReg rt old 6
        else s.finishReg rt old 6 := if_neg hrt

/-- CAS with the old word read: the comparison is all that is left. -/
theorem exec_cas_of_holds {v : Nat} (hrt : rt ≠ 14) (ha : (s.reg ra + sext disp).toNat % 8 = 0)
    (hv : s.mem.Holds (s.reg ra + sext disp) 8 v) (hf : s.memFault (s.reg ra + sext disp) 8 .load = none) :
    exec (.cas rt ra rb rc disp) s =
      if v = (s.reg rb).toNat then
        (s.memWrite (s.reg ra + sext disp) 8 (s.reg rc)).run s fun t => t.finishReg rt (BitVec.ofNat 64 v) 6
      else s.finishReg rt (BitVec.ofNat 64 v) 6 := by
  have hsize : v < 2 ^ 64 := hv.1
  have heq : BitVec.ofNat 64 v = s.reg rb ↔ v = (s.reg rb).toNat := by
    rw [← BitVec.toNat_inj, BitVec.toNat_ofNat, Nat.mod_eq_of_lt hsize]
  rw [exec_cas hrt, State.memRead_of_holds hv ha hf, Access.run_value]
  simp only [heq]

end

/-- Settles O53: where the values differ CAS ends by writing the old word, where they are equal it stores before that. -/
theorem compareAndSwap : Obligations.CompareAndSwap := by
  intro s rt ra rb rc disp v ea hrt ha hv hload
  refine ⟨fun hne => writes_of_finishReg ((exec_cas_of_holds hrt ha hv hload).trans (if_neg hne)) rfl,
    fun heq hstore => ?_⟩
  obtain ⟨hholds, hbut⟩ := s.storeWord_memory ea (s.reg rc)
  obtain ⟨t, ht, ⟨hrt', hregs⟩, hpc, hpreds, hmem, hsys⟩ :=
    (s.storeWord ea (s.reg rc)).finishReg_spec rt (BitVec.ofNat 64 v) 6
  refine ⟨t, ?_, ⟨hrt', hregs⟩, ⟨hholds.1, fun k hk => (hmem _).trans (hholds.2 k hk)⟩,
    fun a hout => (hmem a).trans (hbut a hout), hpc, hpreds, ?_⟩
  · rw [exec_cas_of_holds hrt ha hv hload, if_pos heq, State.memWrite_allowed _ ha hstore]
    exact ht
  · obtain ⟨him, hkm, hpim, hpkm, hcli, hepc, hvba, hexc, hlc, hasid, hbir, htick, hin, hpl, hdr⟩ := hsys
    exact ⟨him, hkm, hpim, hpkm, hcli, hepc, hvba, hexc, hlc, hasid, hbir, htick, hin, hpl, hdr⟩

/-- Settles O54: the target is looked at first, then the load is made, then the store. -/
theorem casRaises : Obligations.CasRaises := by
  intro s rt ra rb rc disp ea
  refine ⟨raises_of_eq exec_cas_sp, fun hrt => ?_, fun f hrt ha hload hv hstore => raises_of_eq ?_⟩
  · exact accessRaises_of_run (exec_cas hrt) State.memRead_misaligned fun _ => State.memRead_faulted
  · rw [exec_cas_of_holds hrt ha hv hload, if_pos rfl, State.memWrite_faulted _ ha hstore, Access.run_raised]

end Sys2Proof.Machine
end

section
/-! The system instructions: the mask, the special registers, and where they raise (R32 to R44, R310 to R323, R343). -/

namespace Sys2Proof.Machine

/-! ### The mask and the caches -/

theorem exec_sei (s : State) :
    exec .sei s = s.guarded true (({ s with im := true, cliPending := 0 } : State).finishNop 2) := rfl

theorem exec_cli (s : State) :
    exec .cli s = s.guarded true
      (if s.im then
        ({ s with im := Config.cliDelay s.draws != 0, cliPending := Config.cliDelay s.draws } : State).finishNop 2
      else s.finishNop 2) := rfl

/-- Each of the cache commands only advances, where it may run (R310). -/
theorem exec_cache {i : Instr} {ra : Reg} (s : State)
    (hi : i ∈ [Instr.cacheInvICache ra, .cacheInvILine ra, .cacheInvDCache ra, .cacheInvDLine ra]) :
    exec i s = s.guarded s.platform.privCache (s.finishNop 4) := by
  simp only [List.mem_cons, List.not_mem_nil, or_false] at hi
  rcases hi with rfl | rfl | rfl | rfl <;> rfl

/-- What an instruction does that updates system state and advances. -/
theorem setsSystem_of_finishNop {i : Instr} {s u : State} {len : Nat} (h : exec i s = u.finishNop len)
    (hpc : u.pc = s.pc) (hdata : SameData s u) : SetsSystem i s u len :=
  ⟨u.advance len, h, by constructor <;> rfl, by rw [State.advance_pc, hpc], hdata⟩

/-- Settles O56: in kernel mode nothing is denied; the delay of CLI is the step's draw. -/
theorem maskAndCache : Obligations.MaskAndCache := by
  intro s ra
  refine ⟨fun hmay i hi => advances_of_finishNop ?_, fun hk => setsSystem_of_finishNop ?_ rfl ?_,
    fun hk him => advances_of_finishNop ?_, fun hk him => ⟨Config.cliDelay s.draws, setsSystem_of_finishNop ?_ rfl ?_⟩⟩
  · rw [exec_cache s hi, State.guarded_allowed _ hmay]
  · rw [exec_sei, State.guarded_allowed _ (.inl hk)]
  · exact sameData_of_eq rfl rfl rfl
  · rw [exec_cli, State.guarded_allowed _ (.inl hk), him]
    rfl
  · have hdelay : (Config.cliDelay s.draws != 0) = decide (Config.cliDelay s.draws ≠ 0) := Bool.eq_iff_iff.2 (by simp)
    rw [exec_cli, State.guarded_allowed _ (.inl hk), if_pos him, hdelay]
  · exact sameData_of_eq rfl rfl rfl

/-! ### Which register a number names (R32, R35, R36, R43, R44) -/

/-- A number outside the list names EPC or VBA where the platform says so, and else nothing. -/
theorem Platform.spr_of_unlisted (p : Platform) {n : SprNo} (h : n ∉ ([48, 49, 50, 51, 52, 53, 59, 60, 61] : List SprNo)) :
    p.spr n.val = if p.sprEpc = some n then some .epc else if p.sprVba = some n then some .vba else none := by
  have hval : ∀ o : Option SprNo, o.map Fin.val = some n.val ↔ o = some n := fun o =>
    (Option.map_injective Fin.val_injective).eq_iff (b := some n)
  simp only [List.mem_cons, List.not_mem_nil, or_false, not_or, Fin.ext_iff] at h
  unfold Platform.spr
  split
  case h_10 => simp only [hval]
  all_goals next hn => simp [hn] at h

/-- No number from 2048 up names a register. -/
theorem Platform.spr_of_large (p : Platform) {n : Nat} (h : 2048 ≤ n) : p.spr n = none := by
  have hval : ∀ o : Option SprNo, o.map Fin.val ≠ some n := fun o ho => by
    obtain ⟨m, -, hm⟩ := Option.map_eq_some_iff.1 ho
    have := m.isLt
    omega
  unfold Platform.spr
  split
  case h_10 => rw [if_neg (hval _), if_neg (hval _)]
  all_goals omega

/-- 61 alone names the breakout register. -/
theorem Platform.spr_ne_breakout (p : Platform) {n : Nat} (h : n ≠ 61) : p.spr n ≠ some .breakout := by
  unfold Platform.spr
  split
  case h_9 => exact absurd rfl h
  case h_10 => split <;> [exact nofun; (split <;> exact nofun)]
  all_goals exact nofun

/-- A number other than 61 reaches the register it names. -/
theorem State.sprTarget_of_ne (s : State) {n : Nat} (h : n ≠ 61) : s.sprTarget n = s.platform.spr n := by
  have hne := s.platform.spr_ne_breakout h
  unfold State.sprTarget
  split
  · next hb => exact absurd hb hne
  · rfl

/-- 61 reaches the register whose number BIR holds. -/
theorem State.sprTarget_breakout (s : State) : s.sprTarget 61 = s.platform.spr s.bir.toNat := rfl

/-- An access through 61 is one at the number that BIR holds. -/
theorem State.sprTarget_breakout_eq (s : State) {n : Nat} (hbir : s.bir.toNat = n) (h : n ≠ 61) :
    s.sprTarget 61 = s.sprTarget n := by
  rw [State.sprTarget_breakout, hbir, State.sprTarget_of_ne s h]

/-- A number outside the list reaches EPC or VBA where the platform says so, and else nothing. -/
theorem State.sprTarget_of_unlisted (s : State) {n : SprNo}
    (h : n ∉ ([48, 49, 50, 51, 52, 53, 59, 60, 61] : List SprNo)) :
    s.sprTarget n.val =
      if s.platform.sprEpc = some n then some .epc else if s.platform.sprVba = some n then some .vba else none := by
  have hne : n.val ≠ 61 := fun h61 => h (by simp [Fin.ext_iff, h61])
  rw [State.sprTarget_of_ne s hne, Platform.spr_of_unlisted _ h]

/-- Where BIR names 61 or no number of eleven bits, 61 reaches no register that can be read or written (log 19). -/
theorem State.sprTarget_breakout_illegal {s : State} (h : s.bir = 61 ∨ 2048 ≤ s.bir.toNat) :
    s.sprTarget 61 = some .breakout ∨ s.sprTarget 61 = none := by
  rw [State.sprTarget_breakout]
  rcases h with h | h
  · exact .inl (by rw [h]; rfl)
  · exact .inr (Platform.spr_of_large _ h)

/-! ### MF and MT in a mode that may run them -/

section
variable {s : State} {rt ra : Reg} {n : SprNo}

/-- MF of a register that may be read ends by writing its value (R322). -/
theorem exec_mf_of_read {v : Word} {t : State} (hmay : s.km = true ∨ s.platform.privMf = false)
    (h : s.readSpr n.val = some (v, t)) : exec (.mf rt n) s = t.finishReg rt v 6 := by
  change execMf rt n s = _
  rw [execMf, State.guarded_allowed _ hmay, h]

/-- MF of one that may not raises (R44). -/
theorem exec_mf_of_none (hmay : s.km = true ∨ s.platform.privMf = false) (h : s.readSpr n.val = none) :
    exec (.mf rt n) s = s.raise .illegalInstruction none := by
  change execMf rt n s = _
  rw [execMf, State.guarded_allowed _ hmay, h]

/-- MT to a register that may be written ends by advancing (R323). -/
theorem exec_mt_of_write {t : State} (hmay : s.km = true ∨ s.platform.privMt = false)
    (h : s.writeSpr n.val (s.reg ra) = some t) : exec (.mt n ra) s = t.finishNop 6 := by
  change execMt n ra s = _
  rw [execMt, State.guarded_allowed _ hmay, h]

/-- MT to one that may not raises (R44). -/
theorem exec_mt_of_none (hmay : s.km = true ∨ s.platform.privMt = false) (h : s.writeSpr n.val (s.reg ra) = none) :
    exec (.mt n ra) s = s.raise .illegalInstruction none := by
  change execMt n ra s = _
  rw [execMt, State.guarded_allowed _ hmay, h]

/-- MF at two numbers that reach the same register. -/
theorem exec_mf_congr {m : SprNo} (h : s.sprTarget m.val = s.sprTarget n.val) : exec (.mf rt m) s = exec (.mf rt n) s := by
  change execMf rt m s = execMf rt n s
  rw [execMf, execMf, State.readSpr, State.readSpr, h]

/-- MT at two numbers that reach the same register. -/
theorem exec_mt_congr {m : SprNo} (h : s.sprTarget m.val = s.sprTarget n.val) : exec (.mt m ra) s = exec (.mt n ra) s := by
  change execMt m ra s = execMt n ra s
  rw [execMt, execMt, State.writeSpr, State.writeSpr, h]

/-- A privileged MF in user mode raises (R343). -/
theorem exec_mf_denied (huser : s.km = false) (hpriv : s.platform.privMf = true) :
    exec (.mf rt n) s = s.raise .privilegeViolation none := by
  change execMf rt n s = _
  rw [execMf, hpriv, State.guarded_denied _ huser]

/-- A privileged MT in user mode raises (R343). -/
theorem exec_mt_denied (huser : s.km = false) (hpriv : s.platform.privMt = true) :
    exec (.mt n ra) s = s.raise .privilegeViolation none := by
  change execMt n ra s = _
  rw [execMt, hpriv, State.guarded_denied _ huser]

end

/-! ### PREGS (R41) -/

/-- Bit `j` of the four that PREGS gives a compare register. -/
def CmpReg.bit (p : CmpReg) (j : Nat) : Bool :=
  if j = 0 then p.eq else if j = 1 then p.lt else if j = 2 then p.ltu else false

theorem CmpReg.nibble_lt (p : CmpReg) : p.nibble < 2 ^ 4 := by
  have := p.eq.toNat_le; have := p.lt.toNat_le; have := p.ltu.toNat_le
  rw [CmpReg.nibble]
  omega

theorem CmpReg.testBit_nibble (p : CmpReg) {j : Nat} (hj : j < 4) : p.nibble.testBit j = p.bit j := by
  have hall : ∀ (eq lt ltu : Bool), ∀ j < 4,
      (CmpReg.nibble ⟨eq, lt, ltu⟩).testBit j = CmpReg.bit ⟨eq, lt, ltu⟩ j := by decide
  exact hall p.eq p.lt p.ltu j hj

/-- Bit `k` of packed compare registers is bit `k % 4` of register `k / 4`. -/
theorem testBit_packFlags (ps : List CmpReg) (k : Nat) :
    (packFlags ps).testBit k = (ps[k / 4]?).elim false (·.bit (k % 4)) := by
  induction ps generalizing k with
  | nil => simp [packFlags]
  | cons p ps ih =>
    have hpack : packFlags (p :: ps) = 2 ^ 4 * packFlags ps + p.nibble := by
      rw [packFlags, Nat.add_comm]
      rfl
    rw [hpack, Nat.testBit_two_pow_mul_add _ p.nibble_lt]
    by_cases hk : k < 4
    · rw [if_pos hk, p.testBit_nibble hk, Nat.div_eq_of_lt hk, Nat.mod_eq_of_lt hk]
      rfl
    · have hdiv : k / 4 = (k - 4) / 4 + 1 := by omega
      have hmod : (k - 4) % 4 = k % 4 := by omega
      rw [if_neg hk, ih, hdiv, hmod, List.getElem?_cons_succ]

/-- Bit `k` of PREGS as MF reads it. -/
theorem getLsbD_packPregs (s : State) {k : Nat} (hk : k < 64) :
    (packPregs s.preds).getLsbD k = (decide (k < 32) && (s.pred (Fin.ofNat 8 (k / 4))).bit (k % 4)) := by
  rw [packPregs, BitVec.getLsbD_ofNat, decide_eq_true hk, Bool.true_and, testBit_packFlags]
  by_cases h32 : k < 32
  · have hidx : k / 4 < 8 := by omega
    have hpred : s.preds.toList[k / 4]? = some (s.pred (Fin.ofNat 8 (k / 4))) := by
      simp [State.pred, hidx, Nat.mod_eq_of_lt hidx]
    simp [hpred, h32]
  · have hidx : 8 ≤ k / 4 := by omega
    simp [h32, hidx]

/-- The compare registers as MT to PREGS writes them. -/
theorem getElem_unpackPregs (v : Word) (p : PReg) : (unpackPregs v)[p] = flagsAt v p.val := by
  match p with
  | 0 | 1 | 2 | 3 | 4 | 5 | 6 | 7 => rfl

/-! ### The statements -/

/-- Settles O57: MF writes the value of the register that the number reaches. -/
theorem moveFromSpecial : Obligations.MoveFromSpecial := by
  intro s rt hmay listed
  have hread : ∀ {n : SprNo} {v : Word}, s.readSpr n.val = some (v, s) → Writes (.mf rt n) s rt v 6 :=
    fun h => writes_of_finishReg (exec_mf_of_read hmay h) rfl
  refine ⟨hread rfl, hread rfl, ?_, hread rfl, ?_, hread rfl, hread rfl, fun n hbir hn => ?_, fun n hn hepc => ?_,
    fun n hn hepc hvba => ?_⟩
  · obtain ⟨t, ht, hrest⟩ := ({ s with tick := s.tickNow } : State).finishReg_spec rt s.tickNow 6
    exact ⟨Config.tickAdvance s.draws, t, (exec_mf_of_read hmay rfl).trans ht, hrest⟩
  · exact writesBits_of_finishReg (exec_mf_of_read hmay rfl) fun k hk => getLsbD_packPregs s hk
  · exact exec_mf_congr (s.sprTarget_breakout_eq hbir fun h => hn (Fin.ext h))
  · refine hread ?_
    rw [State.readSpr, State.sprTarget_of_unlisted s hn, if_pos hepc]
    rfl
  · refine hread ?_
    rw [State.readSpr, State.sprTarget_of_unlisted s hn, if_neg hepc, if_pos hvba]
    rfl

/-- Settles O58: MT writes the register that the number reaches, and only system state but for PREGS. -/
theorem moveToSpecial : Obligations.MoveToSpecial := by
  intro s ra hmay listed v
  have hwrite : ∀ {n : SprNo} {u : State}, s.writeSpr n.val v = some u → u.pc = s.pc → SameData s u →
      SetsSystem (.mt n ra) s u 6 := fun h => setsSystem_of_finishNop (exec_mt_of_write hmay h)
  refine ⟨hwrite rfl rfl (sameData_of_eq rfl rfl rfl), ?_,
    hwrite rfl rfl (sameData_of_eq rfl rfl rfl),
    hwrite rfl rfl (sameData_of_eq rfl rfl rfl),
    hwrite rfl rfl (sameData_of_eq rfl rfl rfl), fun n hbir hn => ?_, fun n hn hepc => ?_,
    fun n hn hepc hvba => ?_⟩
  · refine ⟨({ s with preds := unpackPregs v } : State).advance 6, exec_mt_of_write hmay rfl, getElem_unpackPregs v, rfl,
      fun _ _ => rfl, fun _ => rfl, ?_⟩
    constructor <;> rfl
  · exact exec_mt_congr (s.sprTarget_breakout_eq hbir fun h => hn (Fin.ext h))
  · refine hwrite ?_ rfl (sameData_of_eq rfl rfl rfl)
    rw [State.writeSpr, State.sprTarget_of_unlisted s hn, if_pos hepc]
    rfl
  · refine hwrite ?_ rfl (sameData_of_eq rfl rfl rfl)
    rw [State.writeSpr, State.sprTarget_of_unlisted s hn, if_neg hepc, if_pos hvba]
    rfl

/-- A privileged instruction without operands raises in user mode (R312, R313, R319 to R321). -/
theorem exec_privileged_denied {i : Instr} {s : State} (huser : s.km = false)
    (hi : i ∈ [Instr.cli, .sei, .rti, .rte, .rtd]) : exec i s = s.raise .privilegeViolation none := by
  simp only [List.mem_cons, List.not_mem_nil, or_false] at hi
  rcases hi with rfl | rfl | rfl | rfl | rfl <;> exact State.guarded_denied _ huser

/-- Settles O59: privilege is looked at before all else, then the register that the number reaches. -/
theorem systemRaises : Obligations.SystemRaises := by
  intro s rt ra listed mayMf mayMt
  refine ⟨fun huser i hi => raises_of_eq (exec_privileged_denied huser hi), fun huser hpriv i hi => raises_of_eq ?_,
    fun n huser hpriv => raises_of_eq (exec_mf_denied huser hpriv),
    fun n huser hpriv => raises_of_eq (exec_mt_denied huser hpriv), fun n hn hepc hvba => ?_,
    fun hmay => raises_of_eq (exec_mf_of_none hmay rfl), fun hmay n hn => raises_of_eq (exec_mt_of_none hmay ?_),
    fun hbir => ?_⟩
  · rw [exec_cache s hi, hpriv, State.guarded_denied _ huser]
  · have hnone : s.sprTarget n.val = none := by rw [State.sprTarget_of_unlisted s hn, if_neg hepc, if_neg hvba]
    exact ⟨fun hmay => raises_of_eq (exec_mf_of_none hmay (by rw [State.readSpr, hnone]; rfl)),
      fun hmay => raises_of_eq (exec_mt_of_none hmay (by rw [State.writeSpr, hnone]; rfl))⟩
  · simp only [List.mem_cons, List.not_mem_nil, or_false] at hn
    rcases hn with rfl | rfl | rfl <;> rfl
  · have htarget := State.sprTarget_breakout_illegal hbir
    have hread : s.readSpr 61 = none := by
      rw [State.readSpr]
      rcases htarget with h | h <;> (rw [h]; rfl)
    have hwrite : s.writeSpr 61 (s.reg ra) = none := by
      rw [State.writeSpr]
      rcases htarget with h | h <;> (rw [h]; rfl)
    exact ⟨fun hmay => raises_of_eq (exec_mf_of_none hmay hread), fun hmay => raises_of_eq (exec_mt_of_none hmay hwrite)⟩

end Sys2Proof.Machine
end
